-- ==== Sys2Proof/Word.lean ====
section
/-! DEFINITION. The words of the station: data words, bytes, lane sets. -/

namespace Sys2Proof

/-- A data word: 32 bits (R9). -/
abbrev Word := BitVec 32

/-- A byte of the group bus (R196) or of a lane. -/
abbrev Byte := BitVec 8

/-- A lane set; bit L is lane L, bits 8L+7 down to 8L of a word (R9). -/
abbrev Lanes := BitVec 4

end Sys2Proof
end

