-- ==== Sys2Proof/Syntax.lean ====
section
/-! DEFINITION. The commands: one constructor for each row of spec/opcode_table.json, with the operands the
station does not hold itself. -/

namespace Sys2Proof

/-- The thirteen strap pins at their levels, a field read with its highest-numbered pin first (R1, R195). -/
structure StrapPins where
  sn : BitVec 3
  gs : BitVec 3
  us : BitVec 2
  bs : BitVec 2
  sm : Bool
  ap : BitVec 2
  deriving DecidableEq, Repr

/-- Where an engine takes a request from: the head of the inbound request queue, or a self-addressed hand-off (R75). -/
inductive Via where
  | inbound
  | own
  deriving DecidableEq, Repr

/-- The three outbound queues, each with the counts and the backoff of its own head (R32). -/
inductive OutSel where
  | reply
  | request
  | notice
  deriving DecidableEq, Repr

/-- What the end of a message on the group bus brings to this station. -/
inductive PhaseEnd where
  /-- another station's message ended; these are its bytes (R196) -/
  | received (frame : List Byte)
  /-- the own message ended; these are the ACCEPT and REFUSE lines as sampled (R30) -/
  | sent (accept refuse : Bool)
  /-- another station's message was cut off by its reset; no acceptance phase follows (R41) -/
  | cut
  deriving DecidableEq, Repr

/-- The commands of the station (spec/opcode_table.json, row by row). -/
inductive Instr where
  | powerOnReset
  /-- `accesses`: the word accesses of the claim in progress that were made, the one finished at the cut among them (R20) -/
  | resetnAsserted (accesses : Nat)
  | resetRelease (pins : StrapPins)
  | hostRead (addr : BitVec 25) (lanes : Lanes)
  | hostWrite (addr : BitVec 25) (lanes : Lanes) (data : Word)
  | causeFlagWrite (lanes : Lanes) (data : Word)
  | enablesWrite (lanes : Lanes) (data : Word)
  /-- `index`: the window word's index, R187 -/
  | windowWriteOther (index : BitVec 6) (lanes : Lanes) (data : Word)
  | stalledAccessTaken
  | entryStart
  /-- `others`: the 4-bit keys the other stations present (R27) -/
  | busContention (others : List (BitVec 4))
  | acceptancePhase (e : PhaseEnd)
  | refuseBackoffExpiry (q : OutSel)
  | idleGap
  | slotGrant
  | responseTimerExpiry (tag : BitVec 3)
  | heldTimerExpiry (tag : BitVec 3)
  | backoffTimerExpiry (tag : BitVec 3)
  | hello
  | helloRsp
  | state
  | fail
  | joinWindowExpiry
  | joiningNotReady
  | filterRepeat
  | read (via : Via)
  | update (via : Via)
  | gather (via : Via)
  | store (via : Via)
  | directWrite (via : Via)
  | fold (via : Via)
  | write (via : Via)
  | recover (via : Via)
  | rebuild (via : Via)
  | readRsp
  | writeRsp
  | delta
  | recoverRsp
  | gatherRsp
  | storeRsp
  | foldRsp
  | rebuildRsp
  | hold
  | busy
  | notReady
  | bankGrant
  | bankClaimCompletion
  | exclusiveOpStart
  | memberWriteRelease
  | heldReplyQueued
  | auditPeriodExpiry
  | urgentAuditAdmission
  | ownRecomputeAdmission
  | rebuildPauseExpiry
  | lreqnRelease
  deriving DecidableEq, Repr

end Sys2Proof
end

