-- ==== Sys2Proof/Decode.lean ====
section
/-! DEFINITION. The command a word spells. No row of spec/opcode_table.json gives bits (each row's "fields" is empty
and it has no "fixed"), so no word spells a command. The frames of the group bus are decoded in Machine/Frame.lean. -/

namespace Sys2Proof

/-- The command that the word `w` of `nbits` bits spells by the table: none, since no row gives bits. -/
def decodeTableWord (nbits w : Nat) : Option Instr :=
  match nbits, w with
  | _, _ => none

end Sys2Proof
end

