-- ==== Sys2Proof/Config.lean ====
section
/-! DEFINITION. What the part fixes: queue and table sizes, counts and nominal timer lengths in µs; and the one level the
spec leaves undefined, as a free value. -/

namespace Sys2Proof.Config

/-- Outbound reply queue places (R35). -/
def replyPlaces : Nat := 8
/-- Inbound request queue entries (R37). -/
def inboundPlaces : Nat := 16
/-- Reply inbox entries (R38). -/
def inboxPlaces : Nat := 16
/-- Refusals after which a send counts as unanswered (R32). -/
def refusalLimit : Nat := 32
/-- Unanswered sends after which a message is removed (R33). -/
def unansweredLimit : Nat := 2
/-- Transaction slots (R65). -/
def slotCount : Nat := 8
/-- Response expiries after which a destination is reported (R69). -/
def attemptLimit : Nat := 2
/-- Ceiling of the BUSY count (R72). -/
def busyLimit : Nat := 8
/-- Stripe table entries (R82). -/
def tablePlaces : Nat := 16
/-- Wait pool places (R83). -/
def poolPlaces : Nat := 32
/-- Offsets a recompute list names before it is WHOLE (R93). -/
def recomputeLimit : Nat := 4
/-- Repair queue entries (R135). -/
def repairPlaces : Nat := 8
/-- Deferrals after which an audit is urgent (R146). -/
def urgentLimit : Nat := 8
/-- Listed offsets of a FOLD_RSP (R148). -/
def badListLimit : Nat := 4
/-- Local request queue entries (R178). -/
def localPlaces : Nat := 8
/-- Local entries that may be started together (R180). -/
def startedLimit : Nat := 4
/-- Counters are 16-bit and saturate (R188). -/
def counterMax : Nat := 65535

/-- Refuse backoff, µs (R32). -/
def refuseBackoff : Nat := 2
/-- Response timer, µs (R68). -/
def responseTime : Nat := 40
/-- Held timer, µs (R70). -/
def heldTime : Nat := 10000
/-- One unit of the BUSY backoff, µs (R72). -/
def busyUnit : Nat := 5
/-- Join window, µs (R54). -/
def joinTime : Nat := 2000
/-- Rebuild pause, µs (R165). -/
def pauseTime : Nat := 1000

/-- The status window's first byte address (R8). -/
def windowBase : Nat := 0x1FFFF00

/-- The levels of BA[19:0] while the station holds the bank idle: undefined in reset (`true`), and not given in INERT
(`false`), R201. A free value: log entry 38. -/
opaque idleBankAddress : Bool → BitVec 20

end Sys2Proof.Config
end

