-- ==== Sys2Proof/Machine/State.lean ====
section
/-! DEFINITION. The state of one station with its bank, block by block, as plain data; the ways a step can stop;
and the state after power-on reset. -/

namespace Sys2Proof.Machine

/-- Reasons a step stops with a fault. -/
inductive Fault where
  /-- BANK_CLAIM_COMPLETION, on a claim that names a word the bank does not have. The rules form no such claim
  (R9, R15), so no reachable state raises it. Safe: the model stops. -/
  | bankRange
  deriving DecidableEq, Repr

/-- Reasons a command has no meaning. -/
inductive Refusal where
  /-- Raised by no meaning of this model: every row has its meaning. Safe: the model stops. -/
  | notModelled (mnemonic : String)
  deriving DecidableEq, Repr

/-! ### Membership (chapter 3) -/

/-- The own state (R43). -/
inductive OwnState where
  | inert | joining | filling | rebuilding | active
  deriving DecidableEq, Repr

/-- The state of a view entry (R45). -/
inductive ViewState where
  | absent | joining | rebuilding | active | failed
  deriving DecidableEq, Repr

/-- The state a message carries: the sender state of its header, and the state field of STATE and HELLO_RSP (R21). -/
inductive PeerState where
  | joining | rebuilding | active
  deriving DecidableEq, Repr

/-- The start mode (R1), carried by HELLO (R45, R52). -/
inductive JoinMode where
  | cold | warm
  deriving DecidableEq, Repr

/-- One entry of the view table (R45). -/
structure ViewEntry where
  state : ViewState := .absent
  inc : BitVec 4 := 0
  mode : JoinMode := .cold
  deriving DecidableEq, Repr

/-- The join window (R54): not opened since the start of joining, running, or expired with the HELLO not yet delivered. -/
inductive JoinWindow where
  | closed
  | running (timer : Nat)
  | expired
  deriving DecidableEq, Repr

/-- The membership unit (R43 to R57). -/
structure Membership where
  ownState : OwnState := .inert
  ownInc : BitVec 4 := 0
  joinMode : JoinMode := .cold
  views : List ViewEntry := List.replicate 8 {}
  working : List (Nat × PeerState) := []
  window : JoinWindow := .closed
  fillProgress : Nat := 0
  deriving DecidableEq, Repr

/-! ### Messages (chapter 2) -/

/-- The twenty-three kinds: eight requests (R22), twelve replies (R23), three notices (R24). -/
inductive Kind where
  | read | write | update | recover | gather | store | fold | rebuild
  | readRsp | writeRsp | delta | recoverRsp | gatherRsp | storeRsp | foldRsp | rebuildRsp
  | hold | busy | notReady | helloRsp
  | hello | state | fail
  deriving DecidableEq, Repr

/-- The status of a reply (R25). -/
inductive Status where
  | ok | bad | lost | oldBad | mergeBad
  deriving DecidableEq, Repr

/-- The purpose of a RECOVER (R21). -/
inductive Purpose where
  | read | repair
  deriving DecidableEq, Repr

/-- A destination: a station number, or ALL (R21). -/
inductive Dest where
  | station (j : Nat)
  | all
  deriving DecidableEq, Repr

/-- The request fields (R21, R65), each 0 or empty where a kind does not carry it (R198). In `voids`, true is void. -/
structure Fields where
  stripe : Nat := 0
  position : Nat := 0
  offset : Nat := 0
  count : Nat := 0
  lanes : Lanes := 0
  purpose : Purpose := .read
  payload : List Word := []
  voids : List Bool := []
  deriving DecidableEq, Repr

/-- A message without its check word (R21). `sState`, `sInc`: sender state and incarnation; `nState`: the state
field of STATE and HELLO_RSP; `target`, `targetInc`: of FAIL. -/
structure Msg where
  kind : Kind
  source : Nat := 0
  dest : Dest := .all
  sState : PeerState := .joining
  sInc : BitVec 4 := 0
  tag : Nat := 0
  seq : Bool := false
  status : Status := .ok
  f : Fields := {}
  foldWord : Word := 0
  bad : List Nat := []
  many : Bool := false
  mode : JoinMode := .cold
  nState : PeerState := .joining
  target : Nat := 0
  targetInc : BitVec 4 := 0
  deriving DecidableEq, Repr

/-! ### Link controller (chapter 2) -/

/-- A queued message; `op` names the stripe of the exclusive operation whose reply it is, while that operation
waits for the reply's disposal (R96, R170). -/
structure OutMsg where
  msg : Msg
  op : Option Nat := none
  deriving DecidableEq, Repr

/-- An outbound queue with the refusal count, the unanswered count and the refuse backoff of its head (R32). -/
structure OutQ where
  q : List OutMsg := []
  refusals : Nat := 0
  unanswered : Nat := 0
  backoff : Option Nat := none
  deriving DecidableEq, Repr

/-- Who waits for a reply-queue place: a held reply, or the block the inbound head goes to (R35, R37). -/
inductive Waiter where
  | reply (m : OutMsg)
  | head
  deriving DecidableEq, Repr

/-- The group bus as this station sees it: free, carrying its own message, or another station's (R27). A detached
message was withdrawn or replaced while in transmission: it is finished and counts for nothing (R34). -/
inductive Bus where
  | free
  | own (sel : OutSel) (msg : Msg) (detached : Bool)
  | other
  deriving DecidableEq, Repr

/-- What a station drives in an acceptance phase (R30), for that phase alone (R196). -/
inductive Answer where
  | none | accept | refuse
  deriving DecidableEq, Repr

/-- The link controller (R35, R37, R38, R41). `answer` records what the station drove in the last acceptance phase of
another's message (log entry 34). -/
structure Link where
  replies : OutQ := {}
  requests : OutQ := {}
  notices : OutQ := {}
  waiters : List Waiter := []
  inbound : List Msg := []
  inbox : List Msg := []
  deferred : Bool := false
  bus : Bus := .free
  answer : Answer := .none
  deriving DecidableEq, Repr

/-! ### Transaction unit and duplicate filter (chapter 4) -/

/-- The state of a slot (R65). -/
inductive SlotState where
  | free | queued | sent | held | backoff
  deriving DecidableEq, Repr

/-- The owner of a slot or an ask (R65): the local entry for a word address, the member write or the exclusive
operation of a stripe, the sweep unit, or the repair queue. -/
inductive Owner where
  | port (addr : Nat)
  | member (stripe : Nat)
  | op (stripe : Nat)
  | sweep
  | repair
  deriving DecidableEq, Repr

/-- An ask in the slot-request list (R66). -/
structure Ask where
  owner : Owner
  kind : Kind
  dest : Nat
  f : Fields
  deriving DecidableEq, Repr

/-- A transaction slot (R65); its tag is its place in the list. A timer holds the µs it was started with. -/
structure Slot where
  seqs : List Bool := List.replicate 8 false
  state : SlotState := .free
  owner : Option Owner := none
  kind : Kind := .read
  dest : Nat := 0
  f : Fields := {}
  attempts : Nat := 0
  busyCount : Nat := 0
  response : Option Nat := none
  held : Option Nat := none
  backoff : Option Nat := none
  deriving DecidableEq, Repr

/-- The transaction unit: eight slots and the slot-request list (R65, R66). -/
structure TxnUnit where
  slots : List Slot := List.replicate 8 {}
  asks : List Ask := []
  deriving DecidableEq, Repr

/-- A cached reply: its kind, its status, at most one word (R77). -/
structure Cached where
  kind : Kind
  status : Status
  word : Option Word
  deriving DecidableEq, Repr

/-- The state of a filter entry (R77). -/
inductive FilterState where
  | inProgress (parked : Bool)
  | done (cached : Option Cached)
  deriving DecidableEq, Repr

/-- An entry of the duplicate filter (R77). -/
structure FilterEntry where
  src : Nat
  tag : Nat
  seq : Bool
  kind : Kind
  state : FilterState
  deriving DecidableEq, Repr

/-! ### Bank (chapter 1) -/

/-- A bank word: 32 data bits and 4 parity bits (R9). -/
structure BankWord where
  data : Word
  par : BitVec 4
  deriving DecidableEq, Repr

/-- The three claimants of the bank (R17, R18). -/
inductive Claimant where
  | holder | home | sweep
  deriving DecidableEq, Repr

/-- What a merge claim does with the word it read (R16): the holder's UPDATE, its direct write, the home's DELTA. -/
inductive Merge where
  | update (lanes : Lanes) (data : Word)
  | direct (lanes : Lanes) (data : Word)
  | delta (d : Word)
  deriving DecidableEq, Repr

/-- The kinds of claim (R15, R16). A word to be written is its data when good, and none when void (R11). -/
inductive BankOp where
  | wordRead
  | wordWrite (w : Option Word)
  | burstRead (count : Nat)
  | burstWrite (ws : List (Option Word))
  | merge (m : Merge)
  deriving DecidableEq, Repr

/-- The work a claim belongs to. -/
inductive ClaimFor where
  /-- the request in the holder engine (R108) -/
  | holder
  /-- a DELTA application of a stripe, at an offset (R113) -/
  | delta (stripe offset : Nat)
  /-- a parity read of a stripe's exclusive operation, from an offset on (R128) -/
  | parityRead (stripe offset : Nat)
  /-- a parity write of a stripe's exclusive operation (R128) -/
  | parityWrite (stripe : Nat)
  /-- the cold fill (R57) -/
  | fill
  /-- the store of a rebuilt or voided unit (R166, R167) -/
  | unitStore
  deriving DecidableEq, Repr

/-- A claim: its first bank word, what it does, and for whom (R15). -/
structure Claim where
  first : Nat
  op : BankOp
  work : ClaimFor
  deriving DecidableEq, Repr

/-- The claim in progress, and whose it is (R18, R19). -/
structure BusyClaim where
  who : Claimant
  claim : Claim
  deriving DecidableEq, Repr

/-- The bank controller, the arbiter and the SRAM (R9, R18, R19). `words` is in canonical form: see Ops. -/
structure Bank where
  words : List (Nat × BankWord) := []
  pointer : Claimant := .holder
  busy : Option BusyClaim := none
  holderDue : List Claim := []
  homeDue : List Claim := []
  sweepDue : List Claim := []
  deriving DecidableEq, Repr

/-! ### Holder engine (chapters 6 and 7) -/

/-- Who asked the home or the holder for work (R83, R94): a peer, an own slot, an internal owner, or nobody
once the requester was lost (R98). -/
inductive Requester where
  | peer (src tag : Nat) (seq : Bool)
  | own (tag : Nat)
  | internalAudit
  | internalRebuild
  | internalList
  | nobody
  deriving DecidableEq, Repr

/-- The request the holder engine works on (R108). -/
structure HolderWork where
  who : Requester
  kind : Kind
  f : Fields
  deriving DecidableEq, Repr

/-- The holder engine and its repair queue of (stripe, offset) (R108, R135). -/
structure Holder where
  work : Option HolderWork := none
  handoffs : List Nat := []
  repair : List (Nat × Nat) := []
  repairOut : Bool := false
  deriving DecidableEq, Repr

/-! ### Home engine (chapter 5) -/

/-- The kinds of work a pool place can hold (R83, R84). -/
inductive WorkKind where
  | write | recover | rebuild | audit | recomputeWhole | mergeWrite | degradedWrite
  deriving DecidableEq, Repr

/-- The use of a pool place (R83): a member write issued in a slot, one whose DELTA is being applied, a wait item of its
list (R84): a conversion in the head section, the urgent audit at the end of the head section, an item of the tail; or
an answer record (R93). -/
inductive Use where
  | member (tag : Nat)
  | applying
  | waitHead
  | waitUrgent
  | waitTail
  | answer
  deriving DecidableEq, Repr

/-- A place of the wait pool in use (R83). -/
structure Place where
  stripe : Nat
  kind : WorkKind
  who : Requester
  position : Nat := 0
  offset : Nat := 0
  lanes : Lanes := 0
  purpose : Purpose := .read
  data : Word := 0
  use : Use
  deriving DecidableEq, Repr

/-- A recompute list (R82, R93). -/
inductive RecList where
  | offsets (l : List Nat)
  | whole
  deriving DecidableEq, Repr

/-- The kinds of exclusive operation (R94). -/
inductive OpKind where
  | recover | mergeWrite | degradedWrite | recompute | audit | rebuild
  deriving DecidableEq, Repr

/-- A member's result in an exclusive operation (R94, R95). -/
inductive MemberResult where
  /-- not asked in this step, or awaited -/
  | awaited
  /-- a GATHER_RSP with its void map; true is void -/
  | gathered (voids : List Bool)
  /-- a FOLD_RSP (R149) -/
  | folded (fold : Word) (bad : List Nat) (many : Bool)
  | unavailable
  deriving DecidableEq, Repr

/-- The step an exclusive operation is in. -/
inductive OpStep where
  /-- gathers and parity reads are out (R128) -/
  | gather
  /-- stores and parity writes are out (R128) -/
  | store
  /-- only the reply is left (R96, R170) -/
  | reply
  /-- AUDIT: FOLDs and the parity burst are out (R149) -/
  | fold
  /-- AUDIT: whole gathers of units with MANY set (R152) -/
  | many
  /-- AUDIT: gathers at the first offset of the repair set (R153) -/
  | offGather
  /-- AUDIT: writes at that offset (R153) -/
  | offStore
  /-- AUDIT: whole gathers of the resync (R154) -/
  | syncGather
  /-- AUDIT: the resync's parity burst (R154) -/
  | syncWrite
  /-- AUDIT: stopped with no result; outstanding slots run out (R150) -/
  | stopping
  deriving DecidableEq, Repr

/-- An exclusive operation in progress (R94). `ok` is the decision taken; `toAsk` the slots still to be asked in
this step, one after another; `outstanding` the asks and slots without an outcome; `claims` the bank claims not
completed; `parity` the parity words read. -/
structure Op where
  kind : OpKind
  who : Requester
  acc : Nat
  position : Nat := 0
  offset : Nat := 0
  lanes : Lanes := 0
  purpose : Purpose := .read
  data : Word := 0
  list : RecList := .whole
  step : OpStep
  ok : Bool := true
  toAsk : List Ask := []
  outstanding : Nat := 0
  claims : Nat := 0
  results : List MemberResult := []
  parity : List BankWord := []
  parityBad : List Nat := []
  repairSet : List Nat := []
  deriving DecidableEq, Repr

/-- An entry of the stripe table (R82). Its member writes, applications, answer records and wait list are the pool
places of its stripe. -/
structure Entry where
  stripe : Nat
  op : Option Op := none
  recompute : Option RecList := none
  deriving DecidableEq, Repr

/-- An accumulator: W words, each with a void flag; free or in use (R85). -/
structure Accum where
  used : Bool := false
  words : List Word := []
  flags : List Bool := []
  deriving DecidableEq, Repr

/-- The home engine (R82 to R85). `pool` is in park order: a place moves to the end when it becomes a wait item, an
answer record or an application. -/
structure Home where
  table : List Entry := []
  pool : List Place := []
  accs : List Accum := List.replicate 2 {}
  accQueue : List Nat := []
  handoffs : List Nat := []
  deriving DecidableEq, Repr

/-! ### Sweep unit (chapters 8 and 9) -/

/-- The step of the rebuild (R161). -/
inductive RebuildStep where
  | idle | asking | paused | waitingRoom | recomputing | storing
  deriving DecidableEq, Repr

/-- The audit phase (R143). -/
inductive AuditPhase where
  | idle | waiting | admitted
  deriving DecidableEq, Repr

/-- The result of an AUDIT (R155). -/
inductive AuditResult where
  | clean | repaired | resync | noResult
  deriving DecidableEq, Repr

/-- The sweep unit (R143, R144, R158, R161). -/
structure Sweep where
  rebuildPtr : Nat := 0
  rebuildStep : RebuildStep := .idle
  pause : Option Nat := none
  auditPtr : Nat := 0
  deferral : Nat := 0
  urgent : Bool := false
  auditPhase : AuditPhase := .idle
  auditTimer : Option Nat := none
  deriving DecidableEq, Repr

/-! ### Local port (chapter 10) -/

/-- An access as the host presents it (R176, R194). -/
structure Access where
  isWrite : Bool
  addr : BitVec 25
  lanes : Lanes
  data : Word
  deriving DecidableEq, Repr

/-- The phase of a local entry (R179). -/
inductive Phase where
  | waiting | first | second
  deriving DecidableEq, Repr

/-- An entry of the local request queue (R179). -/
structure LocalEntry where
  isWrite : Bool
  addr : Nat
  stripe : Nat
  position : Nat
  offset : Nat
  lanes : Lanes
  data : Word
  phase : Phase := .waiting
  deriving DecidableEq, Repr

/-- The fault kinds of the port (R183). -/
inductive PortFault where
  | range | lost | expelled | inert
  deriving DecidableEq, Repr

/-- The local port (R176 to R184, R194). `access` is what the host holds on its pins, `stalled` that it waits for a
queue place, `ack`, `ldo` and `lerr` are LACKn asserted, LDO and LERR. -/
structure Port where
  entries : List LocalEntry := []
  access : Option Access := none
  stalled : Bool := false
  ack : Bool := false
  ldo : Word := 0
  lerr : Bool := false
  firstFault : Option (Nat × PortFault) := none
  deriving DecidableEq, Repr

/-- The six counters (R188). -/
structure Counters where
  recovered : Nat := 0
  lost : Nat := 0
  resyncs : Nat := 0
  repairDrops : Nat := 0
  writeFaults : Nat := 0
  busyRefusals : Nat := 0
  deriving DecidableEq, Repr

/-- One bit for each cause: the flags (R189), and the enables (R190). -/
structure Causes where
  fault : Bool := false
  view : Bool := false
  audit : Bool := false
  rebuildDone : Bool := false
  resetLoss : Bool := false
  deriving DecidableEq, Repr

/-- One station with its bank, and the queue of commands that wait. -/
structure State where
  straps : StrapPins
  inReset : Bool
  mem : Membership
  link : Link
  tu : TxnUnit
  filter : List FilterEntry
  holder : Holder
  home : Home
  sweep : Sweep
  port : Port
  counters : Counters
  causes : Causes
  enables : Causes
  bank : Bank
  pending : List Instr
  deriving DecidableEq, Repr

/-- The station after power-on reset, before reset release (R20, R41, R45, R64, R65, R77, R99, R138, R141, R143,
R158, R161, R188, R190, R192). The strap pins before their first sampling, the own state before reset release, and
the port's outputs have no stated value: log entry 7. -/
def State.reset : State where
  straps := { sn := 0, gs := 0, us := 0, bs := 0, sm := false, ap := 0 }
  inReset := true
  mem := {}
  link := {}
  tu := {}
  filter := []
  holder := {}
  home := {}
  sweep := {}
  port := {}
  counters := {}
  causes := {}
  enables := {}
  bank := {}
  pending := []

/-! ### Whole-block updates -/

/-- The state with another membership unit. -/
def State.setMem (s : State) (v : Membership) : State := { s with mem := v }
/-- The state with another link controller. -/
def State.setLink (s : State) (v : Link) : State := { s with link := v }
/-- The state with another transaction unit. -/
def State.setTu (s : State) (v : TxnUnit) : State := { s with tu := v }
/-- The state with another duplicate filter. -/
def State.setFilter (s : State) (v : List FilterEntry) : State := { s with filter := v }
/-- The state with another holder engine. -/
def State.setHolder (s : State) (v : Holder) : State := { s with holder := v }
/-- The state with another home engine. -/
def State.setHome (s : State) (v : Home) : State := { s with home := v }
/-- The state with another sweep unit. -/
def State.setSweep (s : State) (v : Sweep) : State := { s with sweep := v }
/-- The state with another local port. -/
def State.setPort (s : State) (v : Port) : State := { s with port := v }
/-- The state with other counters. -/
def State.setCounters (s : State) (v : Counters) : State := { s with counters := v }
/-- The state with other cause flags. -/
def State.setCauses (s : State) (v : Causes) : State := { s with causes := v }
/-- The state with other enables. -/
def State.setEnables (s : State) (v : Causes) : State := { s with enables := v }
/-- The state with another bank. -/
def State.setBank (s : State) (v : Bank) : State := { s with bank := v }
/-- The state with another queue of waiting commands. -/
def State.setPending (s : State) (v : List Instr) : State := { s with pending := v }

end Sys2Proof.Machine
end

