-- ==== Sys2Proof/Machine/Operands.lean ====
section
/-! DEFINITION. Straps and derived quantities, the layout map, address classes, lanes and the bank word's parity. -/

namespace Sys2Proof.Machine

/-! ### Straps (R2, R4, R195) -/

/-- Group size N from GS (R195). -/
def gsDecode (g : BitVec 3) : Option Nat :=
  if g == 0 || g == 7 then none else some (g.toNat + 2)

/-- Unit size U in bytes from US (R195). -/
def usDecode (u : BitVec 2) : Option Nat :=
  if u == 3 then none else some (64 * 2 ^ u.toNat)

/-- Bank size B in bytes from BS (R195). -/
def bsDecode (b : BitVec 2) : Nat := 65536 * 4 ^ b.toNat

/-- Start mode from SM (R195). -/
def smDecode (m : Bool) : JoinMode := if m then .warm else .cold

/-- Audit period in µs from AP, none when OFF (R195). -/
def apDecode (a : BitVec 2) : Option Nat :=
  if a == 0 then none else if a == 1 then some 250 else if a == 2 then some 2000 else some 16000

/-- The own station number (R1). -/
def ownNo (p : StrapPins) : Nat := p.sn.toNat

/-- N; 0 when GS is invalid (R4). -/
def groupSize (p : StrapPins) : Nat := (gsDecode p.gs).getD 0

/-- U in bytes; 0 when US is invalid (R4). -/
def unitBytes (p : StrapPins) : Nat := (usDecode p.us).getD 0

/-- B in bytes (R4). -/
def bankBytes (p : StrapPins) : Nat := bsDecode p.bs

/-- W, words per unit (R4). -/
def unitWords (p : StrapPins) : Nat := unitBytes p / 4

/-- D, data units per stripe (R4). -/
def dataUnits (p : StrapPins) : Nat := groupSize p - 1

/-- S, stripes (R4). -/
def stripeCount (p : StrapPins) : Nat := bankBytes p / unitBytes p

/-- The check of R2. -/
def strapsValid (p : StrapPins) : Bool :=
  (gsDecode p.gs).isSome && (usDecode p.us).isSome && decide (ownNo p < groupSize p)

/-- Own station number. -/
def State.own (s : State) : Nat := ownNo s.straps
/-- N. -/
def State.n (s : State) : Nat := groupSize s.straps
/-- W. -/
def State.w (s : State) : Nat := unitWords s.straps
/-- D. -/
def State.d (s : State) : Nat := dataUnits s.straps
/-- S. -/
def State.stripes (s : State) : Nat := stripeCount s.straps

/-! ### The layout map (R5 to R8) -/

/-- The home of stripe `st` (R5). -/
def homeOf (n st : Nat) : Nat := st % n

/-- The holder of position `k` of stripe `st` (R5). -/
def holderOf (n st k : Nat) : Nat := (homeOf n st + 1 + k) % n

/-- The role of station `j` in stripe `st`: r = (j − st − 1) mod N; N − 1 is the home, less is the position (R6). -/
def roleOf (n j st : Nat) : Nat := (j + (n - (st + 1) % n)) % n

/-- The placement of a shared byte address: stripe, position, word offset (R5). -/
structure Placement where
  stripe : Nat
  position : Nat
  offset : Nat
  deriving DecidableEq, Repr

/-- The placement of shared byte address `a` (R5). -/
def placeOf (p : StrapPins) (a : Nat) : Placement :=
  { stripe := a / unitBytes p / dataUnits p
    position := a / unitBytes p % dataUnits p
    offset := a % unitBytes p / 4 }

/-- The shared byte address of a word (R7). -/
def sharedAddr (p : StrapPins) (x : Placement) : Nat :=
  (x.stripe * dataUnits p + x.position) * unitBytes p + 4 * x.offset

/-- The bank word at offset `o` of the unit of stripe `st` (R9). -/
def bankIndex (p : StrapPins) (st o : Nat) : Nat := st * unitWords p + o

/-- Address classes (R8). -/
inductive AddrClass where
  | shared | window | range | inert
  deriving DecidableEq, Repr

/-- The class of a local port byte address (R8). -/
def classOf (p : StrapPins) (a : Nat) : AddrClass :=
  if Config.windowBase ≤ a then .window
  else if strapsValid p then
    (if a < dataUnits p * bankBytes p then .shared else .range)
  else .inert

/-- An access's word address: its byte address with the two lowest bits 0 (R176). -/
def wordAddr (a : Nat) : Nat := a / 4 * 4

/-! ### Lanes (R9 to R13) -/

/-- The mask of the bytes in a lane set (R9). -/
def laneMask (l : Lanes) : Word :=
  (if l.getLsbD 0 then 0x000000FF#32 else 0#32) ||| (if l.getLsbD 1 then 0x0000FF00#32 else 0#32)
    ||| (if l.getLsbD 2 then 0x00FF0000#32 else 0#32) ||| (if l.getLsbD 3 then 0xFF000000#32 else 0#32)

/-- A word with the lanes outside `l` as 0 (R103, R109). -/
def maskLanes (l : Lanes) (w : Word) : Word := w &&& laneMask l

/-- `new` in the lanes of `l`, `old` in the others (R11). -/
def mergeLanes (l : Lanes) (new old : Word) : Word := (new &&& laneMask l) ||| (old &&& ~~~ laneMask l)

/-- Whether a byte has an odd number of ones. -/
def oddByte (b : Byte) : Bool :=
  Bool.xor (Bool.xor (Bool.xor (b.getLsbD 0) (b.getLsbD 1)) (Bool.xor (b.getLsbD 2) (b.getLsbD 3)))
    (Bool.xor (Bool.xor (b.getLsbD 4) (b.getLsbD 5)) (Bool.xor (b.getLsbD 6) (b.getLsbD 7)))

/-- The data byte of lane `i` (R9). -/
def laneByte (w : Word) (i : Nat) : Byte := w.extractLsb' (8 * i) 8

/-- The parity bits that make every lane of a data word good: odd parity (R10). -/
def parityOf (w : Word) : BitVec 4 :=
  (BitVec.ofBool (!oddByte (laneByte w 3)) ++ BitVec.ofBool (!oddByte (laneByte w 2))
    ++ BitVec.ofBool (!oddByte (laneByte w 1)) ++ BitVec.ofBool (!oddByte (laneByte w 0)) : BitVec 4)

/-- Lane `i` of a bank word is good: its nine bits hold an odd number of ones (R10). -/
def laneGood (b : BankWord) (i : Nat) : Bool := Bool.xor (oddByte (laneByte b.data i)) (b.par.getLsbD i)

/-- The word is good in the lanes of `l` (R10, R13). -/
def goodIn (l : Lanes) (b : BankWord) : Bool :=
  (!l.getLsbD 0 || laneGood b 0) && (!l.getLsbD 1 || laneGood b 1) && (!l.getLsbD 2 || laneGood b 2)
    && (!l.getLsbD 3 || laneGood b 3)

/-- The word is good: good in all four lanes (R10). -/
def isGood (b : BankWord) : Bool := goodIn 0xF#4 b

/-- A good word with this data (R11). -/
def goodWord (w : Word) : BankWord := { data := w, par := parityOf w }

/-- The void word: all 36 bits zero (R11). -/
def voidWord : BankWord := { data := 0, par := 0 }

/-- The form written: good with its data, or void (R11). -/
def formWord : Option Word → BankWord
  | some w => goodWord w
  | none => voidWord

/-- The write a merge claim decides on from the old word, if any: UPDATE (R110), direct write (R126), DELTA
application (R113, R114). -/
def mergeDecision (m : Merge) (old : BankWord) : Option BankWord :=
  match m with
  | .update l v => if goodIn (~~~ l) old then some (goodWord (mergeLanes l v old.data)) else none
  | .direct l v => if goodIn (~~~ l) old then some (goodWord (mergeLanes l v old.data)) else none
  | .delta d => if isGood old then some (goodWord (old.data ^^^ d)) else none

/-- The XOR of a list of words. -/
def xorWords (ws : List Word) : Word := ws.foldl (· ^^^ ·) 0

/-- The fold of a unit: the XOR of the data of its good words (R142). -/
def foldUnit (ws : List BankWord) : Word := xorWords ((ws.filter isGood).map (·.data))

/-- The offsets of the words bad in any lane, ascending (R148, R149). -/
def badOffsets (ws : List BankWord) : List Nat :=
  (List.range ws.length).filter fun i => !isGood (ws.getD i voidWord)

/-- The n-th element replaced; a list too short is unchanged. -/
def setAt {α : Type} (l : List α) (i : Nat) (x : α) : List α := l.set i x

end Sys2Proof.Machine
end

