-- ==== Sys2Proof/Machine/Flags.lean ====
section
/-! DEFINITION. Counters, cause flags, enables, attention and the first-fault record (R139 to R141, R184, R188 to
R190). -/

namespace Sys2Proof.Machine

/-- A counter increased by `k`, saturating (R188). -/
def satAdd (c k : Nat) : Nat := min (c + k) Config.counterMax

/-- Recovered words + 1 (R139). -/
def countRecovered (s : State) : State := s.setCounters { s.counters with recovered := satAdd s.counters.recovered 1 }
/-- Lost words + k (R140). -/
def countLost (k : Nat) (s : State) : State := s.setCounters { s.counters with lost := satAdd s.counters.lost k }
/-- Resyncs + 1 (R156). -/
def countResync (s : State) : State := s.setCounters { s.counters with resyncs := satAdd s.counters.resyncs 1 }
/-- Repair drops + k (R141). -/
def countDrops (k : Nat) (s : State) : State :=
  s.setCounters { s.counters with repairDrops := satAdd s.counters.repairDrops k }
/-- Busy refusals + 1 (R141). -/
def countBusy (s : State) : State := s.setCounters { s.counters with busyRefusals := satAdd s.counters.busyRefusals 1 }

/-- Sets the VIEW cause when `b` holds (R46). -/
def causeView (b : Bool) (s : State) : State := s.setCauses { s.causes with view := s.causes.view || b }
/-- Sets the AUDIT cause (R156). -/
def causeAudit (s : State) : State := s.setCauses { s.causes with audit := true }
/-- Sets the REBUILD_DONE cause (R172). -/
def causeRebuildDone (s : State) : State := s.setCauses { s.causes with rebuildDone := true }

/-- A write fault: the counter, the first-fault record when empty, and the FAULT cause (R184). -/
def writeFault (addr : Nat) (k : PortFault) (s : State) : State :=
  ((s.setCounters { s.counters with writeFaults := satAdd s.counters.writeFaults 1 }).setPort
    { s.port with firstFault := s.port.firstFault <|> some (addr, k) }).setCauses { s.causes with fault := true }

/-- The attention output: some cause is set with its enable set (R190). -/
def attention (s : State) : Bool :=
  (s.causes.fault && s.enables.fault) || (s.causes.view && s.enables.view) || (s.causes.audit && s.enables.audit)
    || (s.causes.rebuildDone && s.enables.rebuildDone) || (s.causes.resetLoss && s.enables.resetLoss)

/-- Five causes as bits 4:0 of a window word (R199). -/
def causesWord (c : Causes) : Word :=
  (BitVec.ofBool c.resetLoss ++ BitVec.ofBool c.rebuildDone ++ BitVec.ofBool c.audit ++ BitVec.ofBool c.view
    ++ BitVec.ofBool c.fault : BitVec 5).setWidth 32

/-- The causes that a word's bits 4:0 name (R199). -/
def causesOf (w : Word) : Causes :=
  { fault := w.getLsbD 0, view := w.getLsbD 1, audit := w.getLsbD 2, rebuildDone := w.getLsbD 3,
    resetLoss := w.getLsbD 4 }

/-- A write to the cause-flag word: each flag written 1 in lane 0 of the lane set is cleared; clearing FAULT empties
the first-fault record (R186, R189, R200). -/
def clearCauses (lanes : Lanes) (data : Word) (s : State) : State :=
  let c := causesOf (maskLanes lanes data)
  (s.setCauses { fault := s.causes.fault && !c.fault
                 view := s.causes.view && !c.view
                 audit := s.causes.audit && !c.audit
                 rebuildDone := s.causes.rebuildDone && !c.rebuildDone
                 resetLoss := s.causes.resetLoss && !c.resetLoss }).setPort
    { s.port with firstFault := if c.fault then none else s.port.firstFault }

/-- A write to the enables word: bits 4:0 when lane 0 is in the lane set (R186, R190, R200). -/
def writeEnables (lanes : Lanes) (data : Word) (s : State) : State :=
  s.setEnables (causesOf (mergeLanes lanes data (causesWord s.enables)))

end Sys2Proof.Machine
end

