-- ==== Sys2Proof/Machine/Frame.lean ====
section
/-! DEFINITION. The message on the group bus: kinds and what each carries, the header layout, the check word, and
what a receiver makes of a frame (R21 to R26, R31, R196 to R198). -/

namespace Sys2Proof.Machine

/-! ### Kinds -/

/-- The eight requests (R22). -/
def Kind.isRequest : Kind → Bool
  | .read | .write | .update | .recover | .gather | .store | .fold | .rebuild => true
  | .readRsp | .writeRsp | .delta | .recoverRsp | .gatherRsp | .storeRsp | .foldRsp | .rebuildRsp
  | .hold | .busy | .notReady | .helloRsp | .hello | .state | .fail => false

/-- The three notices (R24). -/
def Kind.isNotice : Kind → Bool
  | .hello | .state | .fail => true
  | .read | .write | .update | .recover | .gather | .store | .fold | .rebuild
  | .readRsp | .writeRsp | .delta | .recoverRsp | .gatherRsp | .storeRsp | .foldRsp | .rebuildRsp
  | .hold | .busy | .notReady | .helloRsp => false

/-- The twelve replies (R23). -/
def Kind.isReply (k : Kind) : Bool := !k.isRequest && !k.isNotice

/-- The final replies: those that end a slot REPLIED (R73). -/
def Kind.isFinal : Kind → Bool
  | .readRsp | .writeRsp | .delta | .recoverRsp | .gatherRsp | .storeRsp | .foldRsp | .rebuildRsp => true
  | .read | .write | .update | .recover | .gather | .store | .fold | .rebuild
  | .hold | .busy | .notReady | .helloRsp | .hello | .state | .fail => false

/-- Whether a reply kind answers a request kind (R23). -/
def Kind.answers : Kind → Kind → Bool
  | .readRsp, .read => true
  | .writeRsp, .write => true
  | .delta, .update => true
  | .recoverRsp, .recover => true
  | .gatherRsp, .gather => true
  | .storeRsp, .store => true
  | .foldRsp, .fold => true
  | .rebuildRsp, .rebuild => true
  | .hold, k => k == .write || k == .recover || k == .rebuild
  | .busy, k => k == .write || k == .recover || k == .rebuild
  | .notReady, k => k.isRequest
  | _, _ => false

/-- Whether a reply kind admits a status on receipt (R23, R25, R198). -/
def Kind.admits : Kind → Status → Bool
  | .readRsp, st => st == .ok || st == .bad
  | .writeRsp, st => st == .ok || st == .lost
  | .delta, st => st == .ok || st == .oldBad || st == .mergeBad
  | .recoverRsp, st => st == .ok || st == .lost
  | .gatherRsp, st => st == .ok
  | .storeRsp, st => st == .ok || st == .mergeBad
  | .foldRsp, st => st == .ok
  | .rebuildRsp, st => st == .ok
  | _, _ => true

/-- The kind code (R197). -/
def Kind.code : Kind → Nat
  | .read => 0x01 | .write => 0x02 | .update => 0x03 | .recover => 0x04
  | .gather => 0x05 | .store => 0x06 | .fold => 0x07 | .rebuild => 0x08
  | .readRsp => 0x10 | .writeRsp => 0x11 | .delta => 0x12 | .recoverRsp => 0x13
  | .gatherRsp => 0x14 | .storeRsp => 0x15 | .foldRsp => 0x16 | .rebuildRsp => 0x17
  | .hold => 0x18 | .busy => 0x19 | .notReady => 0x1A | .helloRsp => 0x1B
  | .hello => 0x1D | .state => 0x1E | .fail => 0x1F

/-- The kind of a code; codes 0x00, 0x09 to 0x0F and 0x1C are undefined (R197). -/
def kindOfCode : Nat → Option Kind
  | 0x01 => some .read | 0x02 => some .write | 0x03 => some .update | 0x04 => some .recover
  | 0x05 => some .gather | 0x06 => some .store | 0x07 => some .fold | 0x08 => some .rebuild
  | 0x10 => some .readRsp | 0x11 => some .writeRsp | 0x12 => some .delta | 0x13 => some .recoverRsp
  | 0x14 => some .gatherRsp | 0x15 => some .storeRsp | 0x16 => some .foldRsp | 0x17 => some .rebuildRsp
  | 0x18 => some .hold | 0x19 => some .busy | 0x1A => some .notReady | 0x1B => some .helloRsp
  | 0x1D => some .hello | 0x1E => some .state | 0x1F => some .fail
  | _ => none

/-! ### Which fields a kind carries (R21, R197) -/

/-- Tag and seq: requests and replies; those of HELLO_RSP are not examined (R23). -/
def Kind.hasTag (k : Kind) : Bool := !k.isNotice && k != .helloRsp
/-- Status: replies; that of HOLD, BUSY, NOT_READY and HELLO_RSP is OK and not examined (R198). -/
def Kind.hasStatus (k : Kind) : Bool := k.isFinal
/-- The address word. -/
def Kind.hasAddress (k : Kind) : Bool := k.isRequest || k == .gatherRsp
/-- Offset. -/
def Kind.hasOffset (k : Kind) : Bool :=
  k == .read || k == .write || k == .update || k == .recover || k == .gather || k == .store || k == .gatherRsp
/-- Count. -/
def Kind.hasCount (k : Kind) : Bool := k == .gather || k == .store || k == .gatherRsp
/-- Lanes. -/
def Kind.hasLanes (k : Kind) : Bool :=
  k == .read || k == .write || k == .update || k == .recover || k == .store
/-- The void map. -/
def Kind.hasVoids (k : Kind) : Bool := k == .store || k == .gatherRsp || k == .rebuildRsp
/-- The fold word and the bad list. -/
def Kind.hasFold (k : Kind) : Bool := k == .foldRsp
/-- The notice word. -/
def Kind.hasNotice (k : Kind) : Bool := k == .helloRsp || k == .state || k == .fail
/-- The state field of the notice word. -/
def Kind.hasNState (k : Kind) : Bool := k == .helloRsp || k == .state

/-- The payload words a kind calls for (R22, R23, R197). -/
def payloadCount (w : Nat) (k : Kind) (st : Status) (count : Nat) : Nat :=
  match k with
  | .write | .update => 1
  | .readRsp | .delta | .recoverRsp => if st == .ok then 1 else 0
  | .store | .gatherRsp => count
  | .rebuildRsp => w
  | _ => 0

/-- The header words after word 0 (R197). -/
def Kind.moreWords (k : Kind) : Nat :=
  (if k.hasAddress then 1 else 0) + (if k.hasVoids then 2 else 0) + (if k.hasFold then 2 else 0)
    + (if k.hasNotice then 1 else 0)

/-- A message with every field its kind does not carry at 0 (R198). -/
def zeroFill (m : Msg) : Msg :=
  { kind := m.kind
    source := m.source
    dest := m.dest
    sState := m.sState
    sInc := m.sInc
    tag := if m.kind.hasTag then m.tag else 0
    seq := m.kind.hasTag && m.seq
    status := if m.kind.hasStatus then m.status else .ok
    f := { stripe := if m.kind.hasAddress then m.f.stripe else 0
           position := if m.kind.isRequest then m.f.position else 0
           offset := if m.kind.hasOffset then m.f.offset else 0
           count := if m.kind.hasCount then m.f.count else 0
           lanes := if m.kind.hasLanes then m.f.lanes else 0
           purpose := if m.kind == .recover then m.f.purpose else .read
           payload := m.f.payload
           voids := if m.kind.hasVoids then m.f.voids else [] }
    foldWord := if m.kind.hasFold then m.foldWord else 0
    bad := if m.kind.hasFold then m.bad else []
    many := m.kind.hasFold && m.many
    mode := if m.kind == .hello then m.mode else .cold
    nState := if m.kind.hasNState then m.nState else .joining
    target := if m.kind == .fail then m.target else 0
    targetInc := if m.kind == .fail then m.targetInc else 0 }

/-! ### The header layout (R197) -/

/-- Codes of a sender state or a state field. -/
def PeerState.code : PeerState → Nat
  | .joining => 0 | .rebuilding => 1 | .active => 2

/-- Codes of a status. -/
def Status.code : Status → Nat
  | .ok => 0 | .bad => 1 | .lost => 2 | .oldBad => 3 | .mergeBad => 4

/-- The peer state of a code; 3 is none. -/
def peerStateOf (c : Nat) : Option PeerState :=
  if c = 0 then some .joining else if c = 1 then some .rebuilding else if c = 2 then some .active else none

/-- The status of a code; 5, 6 and 7 are none. -/
def statusOf (c : Nat) : Option Status :=
  if c = 0 then some .ok else if c = 1 then some .bad else if c = 2 then some .lost
  else if c = 3 then some .oldBad else if c = 4 then some .mergeBad else none

/-- The destination field. -/
def Dest.code : Dest → Nat
  | .station j => j
  | .all => 15

/-- A void map as a number: bit i is the flag of payload word i. -/
def voidNat : List Bool → Nat
  | [] => 0
  | b :: bs => b.toNat + 2 * voidNat bs

/-- Header word 0. -/
def headWord0 (m : Msg) : Word :=
  BitVec.ofNat 5 m.kind.code ++ BitVec.ofNat 3 m.source ++ BitVec.ofNat 4 m.dest.code ++ BitVec.ofNat 2 m.sState.code
    ++ m.sInc ++ BitVec.ofNat 3 m.tag ++ BitVec.ofBool m.seq ++ BitVec.ofNat 3 m.status.code ++ m.f.lanes
    ++ BitVec.ofBool (m.f.purpose == .repair) ++ BitVec.ofBool (m.mode == .warm) ++ 0#1

/-- The address word. -/
def addressWord (f : Fields) : Word :=
  BitVec.ofNat 16 f.stripe ++ BitVec.ofNat 3 f.position ++ BitVec.ofNat 6 f.offset ++ BitVec.ofNat 7 f.count

/-- The bad-list word. -/
def badListWord (m : Msg) : Word :=
  BitVec.ofNat 3 m.bad.length ++ BitVec.ofBool m.many ++ BitVec.ofNat 6 (m.bad.getD 0 0)
    ++ BitVec.ofNat 6 (m.bad.getD 1 0) ++ BitVec.ofNat 6 (m.bad.getD 2 0) ++ BitVec.ofNat 6 (m.bad.getD 3 0) ++ 0#4

/-- The notice word. -/
def noticeWord (m : Msg) : Word :=
  BitVec.ofNat 2 m.nState.code ++ BitVec.ofNat 3 m.target ++ m.targetInc ++ 0#23

/-- The header words of a message, in order. -/
def headerWords (m : Msg) : List Word :=
  headWord0 m ::
    ((if m.kind.hasAddress then [addressWord m.f] else [])
      ++ (if m.kind.hasVoids then
            [BitVec.ofNat 32 (voidNat m.f.voids / 2 ^ 32), BitVec.ofNat 32 (voidNat m.f.voids)] else [])
      ++ (if m.kind.hasFold then [m.foldWord, badListWord m] else [])
      ++ (if m.kind.hasNotice then [noticeWord m] else []))

/-- A word as four bytes, most significant first (R196). -/
def wordBytes (w : Word) : List Byte :=
  [w.extractLsb' 24 8, w.extractLsb' 16 8, w.extractLsb' 8 8, w.extractLsb' 0 8]

/-! ### The check word (R26) -/

/-- One bit into the check register: generator x^16 + x^12 + x^5 + 1. -/
def crcBit (r : BitVec 16) (b : Bool) : BitVec 16 :=
  if Bool.xor r.msb b then (r <<< 1) ^^^ 0x1021#16 else r <<< 1

/-- One byte, most significant bit first. -/
def crcByte (r : BitVec 16) (b : Byte) : BitVec 16 :=
  [7, 6, 5, 4, 3, 2, 1, 0].foldl (fun r i => crcBit r (b.getLsbD i)) r

/-- The check word of a sequence of bytes: the register starts at all ones and is not inverted at the end. -/
def checkWord (bs : List Byte) : BitVec 16 := bs.foldl crcByte 0xFFFF#16

/-- A frame: the bytes with their check word, most significant byte first (R196). -/
def withCheck (bs : List Byte) : List Byte :=
  bs ++ [(checkWord bs).extractLsb' 8 8, (checkWord bs).extractLsb' 0 8]

/-- The frame of a message (R196, R197, R198). -/
def encodeFrame (m : Msg) : List Byte :=
  withCheck ((headerWords (zeroFill m) ++ m.f.payload).flatMap wordBytes)

/-! ### What a receiver makes of a frame -/

/-- Byte i of a frame, 0 past its end. -/
def byteAt (bs : List Byte) (i : Nat) : Byte := bs.getD i 0

/-- Word i of a frame, most significant byte first. -/
def wordAt (bs : List Byte) (i : Nat) : Word :=
  byteAt bs (4 * i) ++ byteAt bs (4 * i + 1) ++ byteAt bs (4 * i + 2) ++ byteAt bs (4 * i + 3)

/-- The field of `len` bits from bit `lo` of a word, as a number. -/
def field (w : Word) (lo len : Nat) : Nat := (w.extractLsb' lo len).toNat

/-- Whether a frame is addressed to station `own`, by number or through ALL. A frame of fewer than two bytes carries
no destination: log entry 10. -/
def addressedTo (own : Nat) (bs : List Byte) : Bool :=
  decide (2 ≤ bs.length) && ((byteAt bs 1).toNat / 16 == own || (byteAt bs 1).toNat / 16 == 15)

/-- The verdicts of R30's first three conditions. -/
inductive Verdict where
  | badCheck
  | undefinedKind
  | malformed
  | ok (m : Msg)
  deriving DecidableEq, Repr

/-- The listed offsets of a bad-list word. -/
def badListOf (w : Word) : List Nat :=
  [field w 22 6, field w 16 6, field w 10 6, field w 4 6].take (field w 29 3)

/-- The message in a frame of kind `k`, when its coded fields have the values R198 allows. -/
def parseMsg (k : Kind) (payload : Nat) (bs : List Byte) : Option Msg :=
  let w0 := wordAt bs 0
  let a := wordAt bs 1
  let v := if k.hasAddress then 2 else 1
  let vmap := (wordAt bs v).toNat * 2 ^ 32 + (wordAt bs (v + 1)).toNat
  let b := wordAt bs 2
  let nw := wordAt bs 1
  match peerStateOf (field w0 18 2) with
  | none => none
  | some ss =>
    if k.isReply && 5 ≤ field w0 7 3 then none
    else if k.hasFold && 4 < field b 29 3 then none
    else if k.hasNState && field nw 30 2 == 3 then none
    else some (zeroFill
      { kind := k
        source := field w0 24 3
        dest := if field w0 20 4 == 15 then .all else .station (field w0 20 4)
        sState := ss
        sInc := w0.extractLsb' 14 4
        tag := field w0 11 3
        seq := w0.getLsbD 10
        status := (statusOf (field w0 7 3)).getD .ok
        f := { stripe := field a 16 16
               position := field a 13 3
               offset := field a 7 6
               count := field a 0 7
               lanes := w0.extractLsb' 3 4
               purpose := if w0.getLsbD 2 then .repair else .read
               payload := (List.range payload).map fun i => wordAt bs (1 + k.moreWords + i)
               voids := (List.range payload).map fun i => vmap.testBit i }
        foldWord := wordAt bs 1
        bad := badListOf b
        many := b.getLsbD 28
        mode := if w0.getLsbD 1 then .warm else .cold
        nState := (peerStateOf (field nw 30 2)).getD .joining
        target := field nw 27 3
        targetInc := nw.extractLsb' 23 4 })

/-- A message of a defined kind is malformed at a station strapped `p` (R31): its source, its destination, a field
out of range, a status or state its kind does not admit, or a role the receiver does not hold. -/
def malformed (p : StrapPins) (m : Msg) : Bool :=
  let k := m.kind
  decide (groupSize p ≤ m.source) || m.source == ownNo p
    || (!k.isNotice && m.dest == .all)
    || ((k == .hello || k == .state) && m.dest != .all)
    || (k.hasAddress && decide (stripeCount p ≤ m.f.stripe))
    || (k.isRequest && decide (dataUnits p ≤ m.f.position))
    || (k.hasOffset && decide (unitWords p ≤ m.f.offset))
    || (k.hasCount && (m.f.count == 0 || decide (unitWords p < m.f.offset + m.f.count)))
    || (k.hasLanes && k != .store && m.f.lanes == 0)
    || (k == .store && m.f.lanes != 0 && m.f.count != 1)
    || m.bad.any (fun o => decide (unitWords p ≤ o))
    || (k == .fail && decide (groupSize p ≤ m.target))
    || !k.admits m.status
    || (k == .state && m.nState == .joining)
    || ((k == .write || k == .recover || k == .rebuild) && homeOf (groupSize p) m.f.stripe != ownNo p)
    || ((k == .read || k == .update || k == .gather || k == .store || k == .fold)
        && holderOf (groupSize p) m.f.stripe m.f.position != ownNo p)

/-- What a station strapped `p` makes of a frame addressed to it: the check, the kind, the form, in the order of R30;
the length as R196 says. -/
def decodeFrame (p : StrapPins) (bs : List Byte) : Verdict :=
  let w0 := wordAt bs 0
  if bs.length < 6 then .badCheck
  else match kindOfCode (field w0 27 5) with
    | none => .undefinedKind
    | some k =>
      if bs.length < 4 * (1 + k.moreWords) + 2 then .badCheck
      else
        let payload := payloadCount (unitWords p) k ((statusOf (field w0 7 3)).getD .lost) (field (wordAt bs 1) 0 7)
        let size := 4 * (1 + k.moreWords + payload)
        if bs.length < size + 2 then .badCheck
        else if size + 2 < bs.length then .malformed
        else if checkWord (bs.take size) != byteAt bs size ++ byteAt bs (size + 1) then .badCheck
        else match parseMsg k payload bs with
          | none => .malformed
          | some m => if malformed p m then .malformed else .ok m

/-! ### Contention (R27, R196) -/

/-- The 4-bit key: class bit, then the station number. -/
def keyOf (isReq : Bool) (own : Nat) : BitVec 4 := BitVec.ofBool isReq ++ BitVec.ofNat 3 own

/-- One key period: the line of bit `i` is low when a station still in drives it low; a station that released it and
sees it low has lost. -/
def keyPeriod (i : Nat) (ks : List (BitVec 4)) : List (BitVec 4) :=
  if ks.any (fun k => !k.getLsbD i) then ks.filter (fun k => !k.getLsbD i) else ks

/-- The keys still in after the four key periods. -/
def contend (ks : List (BitVec 4)) : List (BitVec 4) :=
  keyPeriod 0 (keyPeriod 1 (keyPeriod 2 (keyPeriod 3 ks)))

end Sys2Proof.Machine
end

