-- ==== Sys2Proof/Machine/Ops.lean ====
section
/-! DEFINITION. The named operations over the bank, the link queues, the view, the duplicate filter and the slots,
which the meanings are written in. -/

namespace Sys2Proof.Machine

/-! ### The bank (R9, R11, R14): a list of (word number, word) in canonical form -/

/-- What an unlisted bank word reads as. R14 gives the power-up contents as arbitrary: log entry 6. -/
def unlistedWord : BankWord := voidWord

/-- Every word number of the list is above `a`, and they rise strictly. -/
def risesFrom (a : Nat) : List (Nat × BankWord) → Bool
  | [] => true
  | (i, _) :: rest => decide (a < i) && risesFrom i rest

/-- Word numbers rise strictly. -/
def rises : List (Nat × BankWord) → Bool
  | [] => true
  | (i, _) :: rest => risesFrom i rest

/-- The canonical form: strictly rising word numbers, no entry equal to what an unlisted word reads as. -/
def Memory.wf (m : List (Nat × BankWord)) : Bool := rises m && m.all (fun e => e.2 != unlistedWord)

/-- Bank word `i`. -/
def bankGet (m : List (Nat × BankWord)) (i : Nat) : BankWord :=
  match m with
  | [] => unlistedWord
  | (j, w) :: rest => if j = i then w else bankGet rest i

/-- The list with bank word `i` removed. -/
def bankErase (m : List (Nat × BankWord)) (i : Nat) : List (Nat × BankWord) :=
  match m with
  | [] => []
  | (j, w) :: rest => if j = i then rest else (j, w) :: bankErase rest i

/-- The list with bank word `i` set, in order. -/
def bankPut (m : List (Nat × BankWord)) (i : Nat) (x : BankWord) : List (Nat × BankWord) :=
  match m with
  | [] => [(i, x)]
  | (j, w) :: rest =>
    if i < j then (i, x) :: (j, w) :: rest
    else if i = j then (i, x) :: rest
    else (j, w) :: bankPut rest i x

/-- Writes bank word `i`, keeping the canonical form. -/
def bankSet (m : List (Nat × BankWord)) (i : Nat) (x : BankWord) : List (Nat × BankWord) :=
  if x = unlistedWord then bankErase m i else bankPut m i x

/-- Writes a list of words, first to last. -/
def bankSetAll (m : List (Nat × BankWord)) (ws : List (Nat × BankWord)) : List (Nat × BankWord) :=
  ws.foldl (fun m e => bankSet m e.1 e.2) m

/-- The words of `count` bank words from `first` on, in order (R15). -/
def bankRange (m : List (Nat × BankWord)) (first count : Nat) : List BankWord :=
  (List.range count).map fun i => bankGet m (first + i)

/-! ### Claims (R15 to R20) -/

/-- The number of bank words a claim spans. -/
def BankOp.span : BankOp → Nat
  | .wordRead => 1
  | .wordWrite _ => 1
  | .burstRead c => c
  | .burstWrite ws => ws.length
  | .merge _ => 1

/-- The claim lies within the bank of a station strapped `p` (R9, R15). -/
def claimInBank (p : StrapPins) (c : Claim) : Bool := decide (c.first + c.op.span ≤ stripeCount p * unitWords p)

/-- The words a claim reads and hands to its claimant (R15, R16). -/
def claimReads (m : List (Nat × BankWord)) (c : Claim) : List BankWord :=
  match c.op with
  | .wordRead => [bankGet m c.first]
  | .wordWrite _ => []
  | .burstRead n => bankRange m c.first n
  | .burstWrite _ => []
  | .merge _ => [bankGet m c.first]

/-- Consecutive bank words from `first` on, in the forms asked for (R11, R15). -/
def numbered (first : Nat) : List (Option Word) → List (Nat × BankWord)
  | [] => []
  | w :: ws => (first, formWord w) :: numbered (first + 1) ws

/-- The words a whole claim writes, in order (R15, R16). -/
def claimWrites (m : List (Nat × BankWord)) (c : Claim) : List (Nat × BankWord) :=
  match c.op with
  | .wordRead => []
  | .wordWrite w => numbered c.first [w]
  | .burstRead _ => []
  | .burstWrite ws => numbered c.first ws
  | .merge g =>
    match mergeDecision g (bankGet m c.first) with
    | none => []
    | some w => [(c.first, w)]

/-- The words a claim cut after `accesses` word accesses has written: those accesses' words in the forms asked for, and
none for a merge claim, whose write step is not made (R20, R112, R127; log entry 35). -/
def cutWrites (m : List (Nat × BankWord)) (c : Claim) (accesses : Nat) : List (Nat × BankWord) :=
  match c.op with
  | .merge _ => []
  | .wordRead | .wordWrite _ | .burstRead _ | .burstWrite _ => (claimWrites m c).take accesses

/-- The void words a claim writes (R140). -/
def claimVoids (c : Claim) : Nat :=
  match c.op with
  | .wordWrite w => if w.isNone then 1 else 0
  | .burstWrite ws => (ws.filter (·.isNone)).length
  | _ => 0

/-- The claim's words are written, each void word counted, and the bank is free (R11, R15, R16, R140). -/
def runClaim (c : Claim) (s : State) : State :=
  countLost (claimVoids c)
    (s.setBank { s.bank with words := bankSetAll s.bank.words (claimWrites s.bank.words c), busy := none })

/-- A claim in progress, if there is one, completes whole with its result discarded (R20). -/
def finishClaim (s : State) : State :=
  match s.bank.busy with
  | none => s
  | some b => runClaim b.claim s

/-- The claims due of a claimant, its next claim first (R19). -/
def Bank.due (b : Bank) : Claimant → List Claim
  | .holder => b.holderDue
  | .home => b.homeDue
  | .sweep => b.sweepDue

/-- The bank with a claimant's claims due replaced. -/
def Bank.setDue (b : Bank) (c : Claimant) (l : List Claim) : Bank :=
  match c with
  | .holder => { b with holderDue := l }
  | .home => { b with homeDue := l }
  | .sweep => { b with sweepDue := l }

/-- A claim becomes due: it joins its claimant's list (R19). -/
def dueClaim (who : Claimant) (c : Claim) (s : State) : State :=
  s.setBank (s.bank.setDue who (s.bank.due who ++ [c]))

/-- The fixed rotation (R18). -/
def Claimant.after : Claimant → Claimant
  | .holder => .home
  | .home => .sweep
  | .sweep => .holder

/-- The first claimant in rotation from the pointer with a claim waiting (R18). -/
def arbiterPick (b : Bank) : Option Claimant :=
  [b.pointer, b.pointer.after, b.pointer.after.after].find? fun c => !(b.due c).isEmpty

/-! ### The view (R45) -/

/-- The own state as peers see it (R21). -/
def shownState : OwnState → PeerState
  | .rebuilding => .rebuilding
  | .active => .active
  | .inert | .joining | .filling => .joining

/-- A peer state as a view state. -/
def PeerState.toView : PeerState → ViewState
  | .joining => .joining
  | .rebuilding => .rebuilding
  | .active => .active

/-- The view entry of station `j`. -/
def viewAt (s : State) (j : Nat) : ViewEntry := s.mem.views.getD j {}

/-- The view with the entry of station `j` replaced. -/
def setView (j : Nat) (v : ViewEntry) (s : State) : State :=
  s.setMem { s.mem with views := setAt s.mem.views j v }

/-- Available: REBUILDING or ACTIVE (R45). -/
def ViewState.available : ViewState → Bool
  | .rebuilding | .active => true
  | .absent | .joining | .failed => false

/-- A destination is available in the view, or is the own station (R67, R101, R105). -/
def reachable (s : State) (j : Nat) : Bool := j == s.own || (viewAt s j).state.available

/-- The own state set, the own view entry with it (R43, R45). -/
def setOwnState (st : OwnState) (s : State) : State :=
  setView s.own { state := (shownState st).toView, inc := s.mem.ownInc, mode := s.mem.joinMode }
    (s.setMem { s.mem with ownState := st })

/-- The station is neither INERT nor held in reset (R3, R30). -/
def live (s : State) : Bool := !s.inReset && s.mem.ownState != .inert

/-- The levels of the bank port's pins (section 11.1): BCEn, BWEn and BOEn, true for high; whether BD and BP are driven;
BA[19:0]. -/
structure BankPins where
  bce : Bool
  bwe : Bool
  boe : Bool
  driven : Bool
  ba : BitVec 20
  deriving DecidableEq, Repr

/-- The bank port's pins while the station is in reset or INERT: BCEn, BWEn and BOEn high, BD and BP not driven (R201). In
service they follow the port's timing, which the spec leaves out: no levels are given (log entry 38). -/
def bankPins (s : State) : Option BankPins :=
  if live s then none
  else some { bce := true, bwe := true, boe := true, driven := false, ba := Config.idleBankAddress s.inReset }

/-- The engines serve: REBUILDING or ACTIVE (R37, R78). -/
def serving (s : State) : Bool := live s && (s.mem.ownState == .rebuilding || s.mem.ownState == .active)

/-- Stripe `st` is stale on this station: REBUILDING, at or above the rebuild pointer (R158). -/
def stale (s : State) (st : Nat) : Bool := s.mem.ownState == .rebuilding && decide (s.sweep.rebuildPtr ≤ st)

/-- The station's own role makes it the home of a stripe (R6). -/
def homesStripe (s : State) (st : Nat) : Bool := homeOf s.n st == s.own

/-! ### Link queues (R21, R32, R35, R36, R37) -/

/-- The link fills source, sender state and sender incarnation (R21). -/
def stamp (s : State) (m : Msg) : Msg :=
  { m with source := s.own, sState := shownState s.mem.ownState, sInc := s.mem.ownInc }

/-- The outbound queue named. -/
def Link.out (l : Link) : OutSel → OutQ
  | .reply => l.replies
  | .request => l.requests
  | .notice => l.notices

/-- The link with an outbound queue replaced. -/
def Link.setOut (l : Link) (sel : OutSel) (q : OutQ) : Link :=
  match sel with
  | .reply => { l with replies := q }
  | .request => { l with requests := q }
  | .notice => { l with notices := q }

/-- The bus with the own message from `sel` marked withdrawn (R34). -/
def Bus.detach (b : Bus) (sel : OutSel) : Bus :=
  match b with
  | .own x m d => .own x m (d || x == sel)
  | .free => .free
  | .other => .other

/-- The own message from `sel` is in transmission and no longer queued (R34). -/
def Bus.detachedFrom (b : Bus) (sel : OutSel) : Bool :=
  match b with
  | .own x _ d => d && x == sel
  | .free | .other => false

/-- The head of an outbound queue leaves: the next entry becomes head with fresh counts (R32, R35). -/
def OutQ.dropHead (q : OutQ) : OutQ := { q := q.q.drop 1 }

/-- Withdraws from an outbound queue every message that `p` names; when the head leaves so, the counts start afresh,
and a transmission of it goes on withdrawn (R32, R34, R35). -/
def withdraw (sel : OutSel) (p : OutMsg → Bool) (s : State) : State :=
  let q := s.link.out sel
  let rest := q.q.filter fun m => !p m
  match q.q with
  | [] => s
  | h :: _ =>
    if p h then
      s.setLink { (s.link.setOut sel { q := rest }) with bus := s.link.bus.detach sel }
    else s.setLink (s.link.setOut sel { q with q := rest })

/-- The reply-queue places that neither hold a reply nor are reserved: a place is reserved while the holder works on a
peer's request, and a withdrawn reply keeps its place until its transmission ends (R34, R35, R37). -/
def freePlaces (s : State) : Nat :=
  Config.replyPlaces - (s.link.replies.q.length + (s.link.bus.detachedFrom .reply).toNat
    + (match s.holder.work with
       | some { who := .peer _ _ _, .. } => 1
       | _ => 0))

/-- The place of the inbound head among the waiters for a reply-queue place; the last when it does not wait yet (R35). -/
def headRank (s : State) : Nat := s.link.waiters.findIdx (· == .head)

/-- The block the inbound head goes to has the reply-queue place its first answer needs: places go to waiters in the
order their waits began (R35, R37). -/
def headPlace (s : State) : Bool := decide (headRank s < freePlaces s)

/-- The inbound head begins to wait for a reply-queue place (R37). -/
def waitHead (s : State) : State :=
  if s.link.waiters.contains .head then s
  else s.setLink { s.link with waiters := s.link.waiters ++ [.head] }

/-- The inbound head leaves its queue (R37). -/
def popInbound (s : State) : State :=
  s.setLink { s.link with inbound := s.link.inbound.drop 1, waiters := s.link.waiters.filter (· != .head) }

/-- A reply to a station whose view does not admit it is dropped and counts as sent (R36). -/
def replyDropped (s : State) (m : Msg) : Bool :=
  match m.dest with
  | .all => false
  | .station j =>
    match (viewAt s j).state with
    | .absent | .failed => true
    | .joining => m.kind != .helloRsp
    | .rebuilding | .active => false

/-- A reply enters the outbound reply queue, with its header (R21, R35). -/
def pushReply (m : OutMsg) (s : State) : State :=
  let q := s.link.replies
  s.setLink { s.link with replies := { q with q := q.q ++ [{ m with msg := stamp s m.msg }] } }

/-- Whether a queued notice gives way to a new one (R35). -/
def noticeReplaces (new old : Msg) : Bool :=
  match new.kind with
  | .hello | .state => old.kind == .hello || old.kind == .state
  | .fail =>
    old.kind == .fail && (match new.dest with
      | .all => old.dest == .all && old.target == new.target
      | .station j => old.dest == .station j)
  | _ => false

/-- The first message `p` names, replaced. -/
def replaceFirst (p : OutMsg → Bool) (x : OutMsg) : List OutMsg → List OutMsg
  | [] => []
  | m :: ms => if p m then x :: ms else m :: replaceFirst p x ms

/-- A notice is queued: a notice equal in every field to a queued one is not added; one that replaces a queued one
takes its place, and at the head its counts and backoff, a transmission of the replaced head going on withdrawn
(R32, R34, R35). -/
def queueNotice (n : Msg) (s : State) : State :=
  let m : OutMsg := { msg := stamp s n }
  let q := s.link.notices
  if q.q.any (fun x => x.msg == m.msg) then s
  else if q.q.any (fun x => noticeReplaces m.msg x.msg) then
    let bus := if (q.q.take 1).any (fun x => noticeReplaces m.msg x.msg) then s.link.bus.detach .notice else s.link.bus
    s.setLink { s.link with
      notices := { q with q := replaceFirst (fun x => noticeReplaces m.msg x.msg) m q.q }, bus := bus }
  else s.setLink { s.link with notices := { q with q := q.q ++ [m] } }

/-- A STATE notice to ALL. -/
def stateNotice (x : PeerState) : Msg := { kind := .state, nState := x }
/-- A HELLO to ALL. -/
def helloNotice (m : JoinMode) : Msg := { kind := .hello, mode := m }
/-- A FAIL naming station `j` in incarnation `i`. -/
def failNotice (d : Dest) (j : Nat) (i : BitVec 4) : Msg := { kind := .fail, dest := d, target := j, targetInc := i }

/-! ### Duplicate filter (R77 to R81) -/

/-- The entry for a source and a tag. -/
def filterFind (fl : List FilterEntry) (src tag : Nat) : Option FilterEntry :=
  fl.find? fun e => e.src == src && e.tag == tag

/-- The cached reply of a request kind (R77). -/
def cacheOf (m : Msg) : Option Cached :=
  match m.kind with
  | .writeRsp | .delta | .storeRsp | .recoverRsp =>
    some { kind := m.kind, status := m.status, word := m.f.payload.head? }
  | _ => none

/-- What the filter makes of a request at the head (R78, R80). -/
inductive FilterVerdict where
  | new
  | repeatHold
  | discard
  | repeatReply (c : Cached)
  deriving DecidableEq, Repr

/-- The filter's verdict on a request (R78, R80). -/
def filterVerdict (fl : List FilterEntry) (m : Msg) : FilterVerdict :=
  match filterFind fl m.source m.tag with
  | none => .new
  | some e =>
    if e.seq != m.seq then .new
    else match e.state with
      | .inProgress true => .repeatHold
      | .inProgress false => .discard
      | .done none => .new
      | .done (some c) => if m.kind == e.kind then .repeatReply c else .new

/-- An engine takes a new request: its entry is written, replacing any for the pair (R78). -/
def filterTake (m : Msg) (s : State) : State :=
  s.setFilter ((s.filter.filter fun e => !(e.src == m.source && e.tag == m.tag)) ++
    [{ src := m.source, tag := m.tag, seq := m.seq, kind := m.kind, state := .inProgress false }])

/-- Changes the entry of a requester's request, when it is still that request's and IN_PROGRESS (R79). -/
def filterStep (src tag : Nat) (seq : Bool) (st : FilterState) (s : State) : State :=
  s.setFilter (s.filter.map fun e =>
    if e.src == src && e.tag == tag && e.seq == seq && (match e.state with | .inProgress _ => true | .done _ => false)
    then { e with state := st } else e)

/-- The requester's request is parked, or no longer (R79). -/
def filterPark (who : Requester) (parked : Bool) (s : State) : State :=
  match who with
  | .peer src tag seq => filterStep src tag seq (.inProgress parked) s
  | .own _ | .internalAudit | .internalRebuild | .internalList | .nobody => s

/-- A final reply is queued or dropped: the entry becomes DONE (R79). Other replies change nothing. -/
def filterDone (m : Msg) (s : State) : State :=
  if m.kind.isFinal then
    match m.dest with
    | .station j => filterStep j m.tag m.seq (.done (cacheOf m)) s
    | .all => s
  else s

/-! ### Slots (R65 to R75) -/

/-- The slot with tag `t`. -/
def slotAt (s : State) (t : Nat) : Slot := s.tu.slots.getD t {}

/-- The slots with slot `t` replaced. -/
def setSlot (t : Nat) (x : Slot) (s : State) : State := s.setTu { s.tu with slots := setAt s.tu.slots t x }

/-- In flight: QUEUED, SENT, HELD or BACKOFF (R65). -/
def Slot.inFlight (x : Slot) : Bool := x.state != .free

/-- The seq bit of the current use (R65). -/
def Slot.seq (x : Slot) : Bool := x.seqs.getD x.dest false

/-- The slot with every timer stopped. -/
def Slot.stopped (x : Slot) : Slot := { x with response := none, held := none, backoff := none }

/-- The FREE slot with the lowest tag (R66). -/
def freeSlot (s : State) : Option Nat :=
  if s.tu.slots.any (fun x => x.state == .free) then some (s.tu.slots.findIdx (fun x => x.state == .free)) else none

/-- A slot can be had at once: one is FREE and the slot-request list is empty (R66, R91). -/
def slotAtOnce (s : State) : Bool := (freeSlot s).isSome && s.tu.asks.isEmpty

/-- An ask joins the slot-request list (R66). -/
def addAsk (a : Ask) (s : State) : State := s.setTu { s.tu with asks := s.tu.asks ++ [a] }

/-- The request message of a slot, without its header fields. -/
def slotMsg (t : Nat) (x : Slot) : Msg :=
  { kind := x.kind, dest := .station x.dest, tag := t, seq := x.seq, f := x.f }

/-- A copy of the slot's request is queued with a current header, and the slot becomes QUEUED (R67, R69, R71, R72). -/
def queueCopy (t : Nat) (s : State) : State :=
  let x := slotAt s t
  let q := s.link.requests
  (s.setLink { s.link with requests := { q with q := q.q ++ [{ msg := stamp s (slotMsg t x) }] } }).setTu
    { s.tu with slots := setAt s.tu.slots t { x.stopped with state := .queued } }

/-- The slot's queued copy is withdrawn (R35, R70, R73). -/
def withdrawCopy (t : Nat) (s : State) : State := withdraw .request (fun m => m.msg.tag == t) s

/-- A slot's use ends: it becomes FREE with no owner, its timers stop and its queued copy is withdrawn (R73). -/
def endSlot (t : Nat) (s : State) : State :=
  withdrawCopy t (setSlot t { (slotAt s t).stopped with state := .free, owner := none } s)

/-- The engine a request kind names, R37: true for the home engine. -/
def Kind.toHome : Kind → Bool
  | .write | .recover | .rebuild => true
  | _ => false

/-- A self-addressed request is handed to the own engine: SENT, no timer (R75). -/
def handOff (t : Nat) (s : State) : State :=
  let x := slotAt s t
  let s := setSlot t { x.stopped with state := .sent } s
  if x.kind.toHome then s.setHome { s.home with handoffs := s.home.handoffs ++ [t] }
  else s.setHolder { s.holder with handoffs := s.holder.handoffs ++ [t] }

/-- What a slot hands back to its owner (R73). -/
inductive Outcome where
  | replied (m : Msg)
  | notReady
  | unavailable
  deriving DecidableEq, Repr

/-- An ask is granted slot `t`: the seq bit for its destination is changed, the request fields written, the counts
set to 0 (R66); then the first send (R67): handed to the own engine, ended UNAVAILABLE, or queued. -/
def grantSlot (a : Ask) (t : Nat) (s : State) : State × Option Outcome :=
  let x := slotAt s t
  let g : Slot :=
    { seqs := setAt x.seqs a.dest (!x.seqs.getD a.dest false)
      state := .sent
      owner := some a.owner
      kind := a.kind
      dest := a.dest
      f := a.f
      attempts := 0
      busyCount := 0 }
  let s1 := setSlot t g s
  if a.dest == s.own then (handOff t s1, none)
  else if (viewAt s a.dest).state.available then (queueCopy t s1, none)
  else (setSlot t { g with state := .free, owner := none } s, some .unavailable)

end Sys2Proof.Machine
end

