-- ==== Sys2Proof/Machine/PortOps.lean ====
section
/-! DEFINITION. The local port's shared operations: entries, phases, completions and faults (R100 to R107, R176 to
R185), and the answer an own engine hands to an own slot (R75). -/

namespace Sys2Proof.Machine

/-- Completes the host's read: LDO, LERR and LACKn (R176, R194). -/
def completeRead (data : Word) (err : Bool) (s : State) : State :=
  s.setPort { s.port with ack := true, ldo := data, lerr := err }

/-- Releases the host's write: LACKn (R176, R194). -/
def releaseWrite (s : State) : State := s.setPort { s.port with ack := true }

/-- An entry is started: FIRST or SECOND (R179). -/
def LocalEntry.started (e : LocalEntry) : Bool := e.phase != .waiting

/-- The started entry of a word: at most one, since a later entry of the word does not start (R180). -/
def startedEntry (s : State) (addr : Nat) : Option LocalEntry :=
  s.port.entries.find? fun e => e.addr == addr && e.started

/-- The started entry of a word leaves the queue (R182). -/
def dropEntry (addr : Nat) (s : State) : State :=
  s.setPort { s.port with entries := s.port.entries.eraseP (fun e => e.addr == addr && e.started) }

/-- The started entry of a word goes to its second phase (R181). -/
def secondPhase (addr : Nat) (s : State) : State :=
  let mark := fun (e : LocalEntry) => if e.addr == addr && e.started then { e with phase := .second } else e
  s.setPort { s.port with entries := s.port.entries.map mark }

/-- The ask of an entry's first phase: READ to the holder, WRITE to the home (R100, R104). -/
def firstAsk (s : State) (e : LocalEntry) : Ask :=
  if e.isWrite then
    { owner := .port e.addr, kind := .write, dest := homeOf s.n e.stripe,
      f := { stripe := e.stripe, position := e.position, offset := e.offset, lanes := e.lanes, payload := [e.data] } }
  else
    { owner := .port e.addr, kind := .read, dest := holderOf s.n e.stripe e.position,
      f := { stripe := e.stripe, position := e.position, offset := e.offset, lanes := e.lanes } }

/-- The ask of an entry's second phase: RECOVER with purpose READ to the home (R101), or a direct write to the
holder (R105). -/
def secondAsk (s : State) (e : LocalEntry) : Ask :=
  if e.isWrite then
    { owner := .port e.addr, kind := .store, dest := holderOf s.n e.stripe e.position,
      f := { stripe := e.stripe, position := e.position, offset := e.offset, count := 1, lanes := e.lanes,
             payload := [e.data], voids := [false] } }
  else
    { owner := .port e.addr, kind := .recover, dest := homeOf s.n e.stripe,
      f := { stripe := e.stripe, position := e.position, offset := e.offset, lanes := e.lanes, purpose := .read } }

/-- A read finishes with its word (R103, R182). -/
def finishRead (e : LocalEntry) (w : Word) (s : State) : State :=
  completeRead (maskLanes e.lanes w) false (dropEntry e.addr s)

/-- A read finishes with fault LOST: ERR, data 0, lost words + 1 (R182, R185). -/
def finishReadLost (e : LocalEntry) (s : State) : State :=
  countLost 1 (completeRead 0 true (dropEntry e.addr s))

/-- A write finishes without fault (R182). -/
def finishWrite (e : LocalEntry) (s : State) : State := dropEntry e.addr s

/-- A write finishes with fault LOST (R182, R184). -/
def finishWriteLost (e : LocalEntry) (s : State) : State := writeFault e.addr .lost (dropEntry e.addr s)

/-- The deciding outcome of a read's READ or RECOVER: the word of an OK reply (R101, R102). -/
def okWord : Outcome → Option Word
  | .replied m => if m.status == .ok then some (m.f.payload.headD 0) else none
  | .notReady | .unavailable => none

/-- A read entry's outcome: its word; after the READ without one, the RECOVER phase when the home is reachable in the
view; otherwise fault LOST (R101, R102, R107). -/
def readOutcome (e : LocalEntry) (o : Outcome) (s : State) : State :=
  match okWord o with
  | some w => finishRead e w s
  | none =>
    if e.phase == .first && reachable s (homeOf s.n e.stripe) then addAsk (secondAsk s e) (secondPhase e.addr s)
    else finishReadLost e s

/-- A write entry's outcome: a reply decides; after a WRITE that ends NOT_READY or UNAVAILABLE, the direct write when
the holder is reachable in the view; otherwise fault LOST (R104, R105, R106, R107). -/
def writeOutcome (e : LocalEntry) (o : Outcome) (s : State) : State :=
  match o with
  | .replied m => if m.status == .ok then finishWrite e s else finishWriteLost e s
  | .notReady | .unavailable =>
    if e.phase == .first && reachable s (holderOf s.n e.stripe e.position) then
      addAsk (secondAsk s e) (secondPhase e.addr s)
    else finishWriteLost e s

/-- The outcome of a local entry's slot (R101 to R107). -/
def portOutcome (addr : Nat) (o : Outcome) (s : State) : State :=
  match startedEntry s addr with
  | none => s
  | some e => if e.isWrite then writeOutcome e o s else readOutcome e o s

/-- An own engine's answer goes straight to the own slot (R75): HOLD makes it HELD with no timer, BUSY puts it into
BACKOFF, NOT_READY and a final reply end it. Self-addressed requests are the local port's: no other owner's request
is ever self-addressed (R117, R136, R164). -/
def ownReply (t : Nat) (m : Msg) (s : State) : State :=
  let x := slotAt s t
  if !x.inFlight then s
  else match m.kind with
    | .hold => setSlot t { x.stopped with state := .held, attempts := 0 } s
    | .busy =>
      let c := min (x.busyCount + 1) Config.busyLimit
      setSlot t { x.stopped with state := .backoff, attempts := 0, busyCount := c, backoff := some (Config.busyUnit * c) } s
    | k =>
      let o := if k == .notReady then Outcome.notReady else .replied m
      match x.owner with
      | some (.port addr) => portOutcome addr o (endSlot t s)
      | _ => endSlot t s

/-- A reply of a block to its requester, produced at the end of work already taken (R35, R36): dropped when the view
does not admit it, queued when a place is free and nobody waits for one, and otherwise held. -/
def emitReply (m : Msg) (s : State) : State :=
  if replyDropped s m then filterDone m s
  else if s.link.waiters.isEmpty && decide (0 < freePlaces s) then pushReply { msg := m } (filterDone m s)
  else s.setLink { s.link with waiters := s.link.waiters ++ [.reply { msg := m }] }

/-- A reply to a requester: to a peer over the link, to an own slot straight; nothing to others (R96, R98). -/
def tellRequester (who : Requester) (m : Msg) (s : State) : State :=
  match who with
  | .peer src tag seq => emitReply { m with dest := .station src, tag := tag, seq := seq } s
  | .own t => ownReply t m s
  | .internalAudit | .internalRebuild | .internalList | .nobody => s

/-- The requester's work is parked: HOLD is sent and the filter marks it parked (R79, R92). -/
def holdRequester (who : Requester) (s : State) : State :=
  tellRequester who { kind := .hold } (filterPark who true s)

/-- The first answer to the inbound head, in the place it has: dropped when the view does not admit it (R36, R37). -/
def answerHead (m : Msg) (s : State) : State :=
  if replyDropped s m then filterDone m s else pushReply { msg := m } (filterDone m s)

/-- The first answer to a request just taken: to a peer in the place its head had, to an own slot straight. -/
def firstAnswer (who : Requester) (m : Msg) (s : State) : State :=
  match who with
  | .peer src tag seq => answerHead { m with dest := .station src, tag := tag, seq := seq } s
  | .own t => ownReply t m s
  | .internalAudit | .internalRebuild | .internalList | .nobody => s

end Sys2Proof.Machine
end

