-- ==== Sys2Proof/Machine/HomeTable.lean ====
section
/-! DEFINITION. The stripe table, the wait pool and the accumulator queue, and what may be admitted to them (R82 to
R90). -/

namespace Sys2Proof.Machine

/-- The pool places of a stripe, in park order. -/
def Home.places (h : Home) (st : Nat) : List Place := h.pool.filter fun p => p.stripe == st

/-- The place holds a member write not yet answered or ended (R91). -/
def Use.isMember : Use → Bool
  | .member _ => true
  | .applying | .waitHead | .waitUrgent | .waitTail | .answer => false

/-- Member writes in flight of a stripe's entry (R82). -/
def Home.inFlight (h : Home) (st : Nat) : Nat := (h.places st).countP fun p => p.use.isMember

/-- Applications pending of a stripe's entry (R82). -/
def Home.applying (h : Home) (st : Nat) : Nat := (h.places st).countP fun p => p.use == .applying

/-- The entry of a stripe (R82). -/
def Home.entry (h : Home) (st : Nat) : Option Entry := h.table.find? fun e => e.stripe == st

/-- The stripe has an entry. -/
def Home.hasEntry (h : Home) (st : Nat) : Bool := h.table.any fun e => e.stripe == st

/-- The first place of a stripe in one use, in park order. -/
def Home.firstIn (h : Home) (st : Nat) (u : Use) : Option Place := (h.places st).find? fun p => p.use == u

/-- The first wait item of a stripe: a conversion; else the urgent audit, which conversions made before and after its
admission both precede; else an item of the tail (R84, R147, R157). -/
def Home.firstWait (h : Home) (st : Nat) : Option Place :=
  h.firstIn st .waitHead <|> h.firstIn st .waitUrgent <|> h.firstIn st .waitTail

/-- An entry's head (R84). -/
inductive EntryHead where
  | nothing
  | recompute
  | item (p : Place)
  deriving DecidableEq, Repr

/-- The entry's first piece of work: the pending RECOMPUTE, then its wait list (R84). -/
def Home.head (h : Home) (e : Entry) : EntryHead :=
  if e.recompute.isSome then .recompute
  else match h.firstWait e.stripe with
    | none => .nothing
    | some p => .item p

/-- A head that is an exclusive operation: any head but a plain WRITE (R84). -/
def EntryHead.exclusive : EntryHead → Bool
  | .nothing => false
  | .recompute => true
  | .item p => p.kind != .write

/-- The entry is ready (R85). -/
def Home.ready (h : Home) (e : Entry) : Bool :=
  (h.head e).exclusive && e.op.isNone && h.inFlight e.stripe == 0 && h.applying e.stripe == 0

/-- Nothing is left in the entry: it is removed (R82). -/
def Home.spent (h : Home) (e : Entry) : Bool := e.op.isNone && e.recompute.isNone && (h.places e.stripe).isEmpty

/-- After a change at the home: spent entries are removed, and the accumulator queue keeps its entries that are still
ready and gains those made ready, in table order (R82, R85, R96; log entry 17). -/
def settleHome (h : Home) : Home :=
  let h := { h with table := h.table.filter fun e => !h.spent e }
  let keep := h.accQueue.filter fun st => h.table.any fun e => e.stripe == st && h.ready e
  let gained := (h.table.filter fun e => h.ready e && !keep.contains e.stripe).map (·.stripe)
  { h with accQueue := keep ++ gained }

/-- The state with its home settled. -/
def settle (s : State) : State := s.setHome (settleHome s.home)

/-- An entry for the stripe, created when it has none (R88, R89). -/
def Home.ensure (h : Home) (st : Nat) : Home :=
  if h.hasEntry st then h else { h with table := h.table ++ [{ stripe := st }] }

/-- A place is taken in the pool, with an entry for its stripe (R83, R88, R89). -/
def takePlace (p : Place) (s : State) : State :=
  let h := s.home.ensure p.stripe
  s.setHome { h with pool := h.pool ++ [p] }

/-- Changes the entry of a stripe. -/
def Home.mapEntry (h : Home) (st : Nat) (g : Entry → Entry) : Home :=
  { h with table := h.table.map fun e => if e.stripe == st then g e else e }

/-- Changes the exclusive operation of a stripe's entry. -/
def mapOp (st : Nat) (g : Op → Op) (s : State) : State :=
  s.setHome (s.home.mapEntry st fun e => { e with op := e.op.map g })

/-- The exclusive operation of a stripe's entry. -/
def opAt (s : State) (st : Nat) : Option Op := (s.home.entry st).bind (·.op)

/-- The first place `p` names leaves the pool: it is free (R83). -/
def freePlace (p : Place → Bool) (s : State) : State := s.setHome { s.home with pool := s.home.pool.eraseP p }

/-- The first place `p` names takes another use and moves to the end of the park order (R83). -/
def movePlace (p : Place → Bool) (g : Place → Place) (s : State) : State :=
  match s.home.pool.find? p with
  | none => s
  | some x => s.setHome { s.home with pool := s.home.pool.eraseP p ++ [g x] }

/-- The first place `p` names changed where it stands. -/
def changeFirst (p : Place → Bool) (g : Place → Place) : List Place → List Place
  | [] => []
  | x :: xs => if p x then g x :: xs else x :: changeFirst p g xs

/-- The pool has a free place (R83). -/
def poolRoom (s : State) : Bool := decide (s.home.pool.length < Config.poolPlaces)

/-- The table holds fewer than 16 entries (R82). -/
def tableRoom (s : State) : Bool := decide (s.home.table.length < Config.tablePlaces)

/-- There is room for one more work of the stripe: a pool place, and a table place when it has no entry
(R145, R147, R162). -/
def roomFor (s : State) (st : Nat) : Bool := poolRoom s && (s.home.hasEntry st || tableRoom s)

/-- An urgent audit for a stripe with no entry waits; a table place freed meanwhile is held for it (R90, R147). -/
def auditWantsTable (s : State) : Bool := s.sweep.auditPhase == .waiting && !s.home.hasEntry s.sweep.auditPtr

/-- An admitted request for a stripe is refused BUSY (R87). -/
def refusedBusy (s : State) (st : Nat) : Bool :=
  (!s.home.hasEntry st && (!tableRoom s || auditWantsTable s)) || !poolRoom s

/-- An urgent audit can be admitted, R147; it comes before any request or operation weighed later. -/
def urgentDue (s : State) : Bool := s.sweep.auditPhase == .waiting && roomFor s s.sweep.auditPtr

/-- The own RECOMPUTE waiting for room can be admitted, R162; it comes before any request or operation weighed later. -/
def recomputeDue (s : State) : Bool := s.sweep.rebuildStep == .waitingRoom && roomFor s s.sweep.rebuildPtr

/-- Work of the sweep unit that waits for room can be admitted: no request is taken, no operation started and no parked
WRITE released before it (R147, R162; log entry 5). -/
def admissionDue (s : State) : Bool := urgentDue s || recomputeDue s

/-- The parked WRITE heading a stripe's list is releasable (R91). -/
def Home.releasable (h : Home) (st : Nat) : Bool :=
  match h.entry st with
  | none => false
  | some e =>
    e.op.isNone && (match h.head e with
      | .item p => p.kind == .write
      | .nothing | .recompute => false)

/-- A waiting place of a releasable list; the first of them in the pool is the releasable WRITE with the earliest park
order (R91). -/
def Home.releaseTest (h : Home) (p : Place) : Bool := p.use == .waitTail && h.releasable p.stripe

/-- The releasable WRITE with the earliest park order (R91). -/
def Home.releaseCandidate (h : Home) : Option Place := h.pool.find? h.releaseTest

/-- A release is due: a slot can be had at once and a WRITE is releasable (R91). -/
def releaseDue (s : State) : Bool := slotAtOnce s && s.home.releaseCandidate.isSome

/-- An offset joins a recompute list; a fifth distinct offset makes it WHOLE (R93). -/
def addRecompute (o : Nat) : Option RecList → RecList
  | none => .offsets [o]
  | some .whole => .whole
  | some (.offsets l) =>
    if l.contains o then .offsets l
    else if Config.recomputeLimit ≤ l.length then .whole
    else .offsets (l ++ [o])

/-- An offset joins the recompute list of a stripe's entry (R93). -/
def listRecompute (st o : Nat) (s : State) : State :=
  s.setHome (s.home.mapEntry st fun e => { e with recompute := some (addRecompute o e.recompute) })

end Sys2Proof.Machine
end

