-- ==== Sys2Proof/Machine/SweepOps.lean ====
section
/-! DEFINITION. The sweep unit's shared operations: the cold fill, the rebuild of one stripe after another, and the
audit's pointer (R57, R143 to R147, R155, R158 to R172). -/

namespace Sys2Proof.Machine

/-- The station becomes ACTIVE: own state and own view entry, STATE(ACTIVE) to ALL, and the audit period timer when AP
is not OFF (R43, R55, R57, R144, R172). -/
def goActive (s : State) : State :=
  let s := queueNotice (stateNotice .active) (setOwnState .active s)
  s.setSweep { s.sweep with auditTimer := apDecode s.straps.ap }

/-- Payload words with their void flags, as forms to write (R125, R167). -/
def formsOf (payload : List Word) (voids : List Bool) : List (Option Word) :=
  List.zipWith (fun w v => if v then none else some w) payload voids

/-- A burst write of the station's whole unit of a stripe (R15, R17). -/
def unitWrite (s : State) (st : Nat) (ws : List (Option Word)) (work : ClaimFor) : Claim :=
  { first := bankIndex s.straps st 0, op := .burstWrite ws, work := work }

/-- The cold fill's claim for a stripe: W good zero words (R57). -/
def fillClaim (st : Nat) (s : State) : State :=
  dueClaim .sweep (unitWrite s st (List.replicate s.w (some 0)) .fill) s

/-- A cold-fill burst has completed: the progress advances; at S the fill is complete, otherwise the next stripe is
filled (R57). -/
def fillAdvance (s : State) : State :=
  let p := s.mem.fillProgress + 1
  let s := s.setMem { s.mem with fillProgress := p }
  if s.stripes ≤ p then goActive s else fillClaim p s

/-- The sweep unit's place for an own RECOMPUTE(WHOLE) (R162). -/
def recomputePlace (st : Nat) : Place :=
  { stripe := st, kind := .recomputeWhole, who := .internalRebuild, use := .waitTail }

/-- The own RECOMPUTE(WHOLE) of a homed stripe is offered: admitted when there is room, otherwise it waits (R162). -/
def offerRecompute (st : Nat) (s : State) : State :=
  if roomFor s st then
    let s := takePlace (recomputePlace st) s
    s.setSweep { s.sweep with rebuildStep := .recomputing }
  else s.setSweep { s.sweep with rebuildStep := .waitingRoom }

/-- A REBUILD for a stripe is asked for (R164). -/
def askRebuild (st : Nat) (s : State) : State :=
  addAsk { owner := .sweep, kind := .rebuild, dest := homeOf s.n st,
           f := { stripe := st, position := roleOf s.n s.own st } }
    (s.setSweep { s.sweep with rebuildStep := .asking, pause := none })

/-- The rebuild begins a stripe, by the station's role in it (R161). -/
def beginStripe (st : Nat) (s : State) : State :=
  if homesStripe s st then offerRecompute st s else askRebuild st s

/-- Rebuild completion (R172). -/
def rebuildComplete (s : State) : State :=
  let s := goActive s
  causeRebuildDone (s.setSweep { s.sweep with rebuildStep := .idle })

/-- The rebuild of the stripe at the pointer has completed: the pointer advances, and the next stripe is begun or the
rebuild completes (R158, R161, R172). -/
def rebuildAdvance (s : State) : State :=
  let p := s.sweep.rebuildPtr + 1
  let s := s.setSweep { s.sweep with rebuildPtr := p }
  if s.stripes ≤ p then rebuildComplete s else beginStripe p s

/-- The unit at the pointer is written by one burst, and the step is STORING (R166, R167). -/
def storeUnit (ws : List (Option Word)) (s : State) : State :=
  dueClaim .sweep (unitWrite s s.sweep.rebuildPtr ws .unitStore)
    (s.setSweep { s.sweep with rebuildStep := .storing })

/-- The outcome of the sweep unit's REBUILD slot (R164 to R167). -/
def sweepOutcome (o : Outcome) (s : State) : State :=
  match o with
  | .replied m => storeUnit (formsOf m.f.payload m.f.voids) s
  | .notReady => s.setSweep { s.sweep with rebuildStep := .paused, pause := some Config.pauseTime }
  | .unavailable => storeUnit (List.replicate s.w none) s

/-- The audit pointer's next homed stripe (R143). -/
def nextHomed (s : State) : Nat :=
  if s.sweep.auditPtr + s.n < s.stripes then s.sweep.auditPtr + s.n else s.own

/-- The audit pointer advances; the deferral count returns to 0 (R143). -/
def auditAdvance (s : State) : State := s.setSweep { s.sweep with auditPtr := nextHomed s, deferral := 0 }

/-- An AUDIT's result reaches the sweep unit (R155). -/
def auditEnd (r : AuditResult) (s : State) : State :=
  let s := if r == .noResult then s else auditAdvance s
  s.setSweep { s.sweep with deferral := 0, auditPhase := .idle }

/-- The place an AUDIT takes: at the tail, or at the end of the head section when urgent (R84, R145, R147, R157). -/
def auditPlace (st : Nat) (urgent : Bool) : Place :=
  { stripe := st, kind := .audit, who := .internalAudit, use := if urgent then .waitUrgent else .waitTail }

/-- The AUDIT is admitted (R145, R147). -/
def admitAudit (urgent : Bool) (s : State) : State :=
  let s := takePlace (auditPlace s.sweep.auditPtr urgent) s
  s.setSweep { s.sweep with deferral := 0, urgent := false, auditPhase := .admitted }

/-- Every station of the group but the own is ACTIVE in the view: every one of them is a member of every stripe
(R145). -/
def allActive (s : State) : Bool :=
  (List.range s.n).all fun j => j == s.own || (viewAt s j).state == .active

/-- An attempt at the stripe at the pointer: skip, admit or defer, the eighth deferral making the audit urgent
(R145, R146). -/
def auditAttempt (s : State) : State :=
  if !allActive s then auditAdvance s
  else if roomFor s s.sweep.auditPtr then admitAudit false s
  else
    let c := s.sweep.deferral + 1
    if Config.urgentLimit ≤ c then
      s.setSweep { s.sweep with deferral := c, urgent := true, auditPhase := .waiting }
    else s.setSweep { s.sweep with deferral := c }

/-- A waiting urgent audit is withdrawn and its pointer advances (R147). -/
def withdrawUrgent (s : State) : State :=
  if s.sweep.auditPhase == .waiting then
    let s := auditAdvance s
    s.setSweep { s.sweep with urgent := false, auditPhase := .idle }
  else s

end Sys2Proof.Machine
end

