-- ==== Sys2Proof/Machine/HomeOps.lean ====
section
/-! DEFINITION. The exclusive operations of the home (R94 to R96, R117 to R122, R128 to R134, R149 to R156, R163,
R168 to R170): how one starts, takes its members' results and its parity words, decides, writes, and ends. -/

namespace Sys2Proof.Machine

/-! ### Accumulators (R85) -/

/-- An accumulator as an operation finds it: in use, all words 0, every flag clear. -/
def freshAccum (w : Nat) : Accum := { used := true, words := List.replicate w 0, flags := List.replicate w false }

/-- One contribution at an offset: a good word is XORed in, a bad or missing one sets the flag. -/
def Accum.contribute (a : Accum) (o : Nat) : Option Word → Accum
  | some w => { a with words := setAt a.words o (a.words.getD o 0 ^^^ w) }
  | none => { a with flags := setAt a.flags o true }

/-- Contributions at consecutive offsets, taken at the offsets `p` names. -/
def Accum.contributeFrom (a : Accum) (p : Nat → Bool) (o : Nat) : List (Option Word) → Accum
  | [] => a
  | c :: cs => (if p o then a.contribute o c else a).contributeFrom p (o + 1) cs

/-- The word of an accumulator at an offset. -/
def Accum.word (a : Accum) (o : Nat) : Word := a.words.getD o 0

/-- The void flag of an accumulator at an offset. -/
def Accum.flag (a : Accum) (o : Nat) : Bool := a.flags.getD o false

/-- Accumulator `i`. -/
def accAt (s : State) (i : Nat) : Accum := s.home.accs.getD i {}

/-- Changes accumulator `i`. -/
def mapAcc (i : Nat) (g : Accum → Accum) (s : State) : State :=
  s.setHome { s.home with accs := setAt s.home.accs i (g (accAt s i)) }

/-- The accumulator a starting operation takes: the free one with the lowest number. No rule says which of two free ones
it is (R85; log entry 41). -/
def freeAcc (s : State) : Option Nat :=
  if s.home.accs.any (fun a => !a.used) then some (s.home.accs.findIdx fun a => !a.used) else none

/-! ### Asks and claims of an operation -/

/-- A GATHER to the holder of position `k` (R128). -/
def gatherAsk (n st : Nat) (first count : Nat) (k : Nat) : Ask :=
  { owner := .op st, kind := .gather, dest := holderOf n st k,
    f := { stripe := st, position := k, offset := first, count := count } }

/-- A STORE of one word, good or void, to the holder of position `k` (R128). -/
def storeAsk (n st : Nat) (o : Nat) (form : Option Word) (k : Nat) : Ask :=
  { owner := .op st, kind := .store, dest := holderOf n st k,
    f := { stripe := st, position := k, offset := o, count := 1, payload := [form.getD 0], voids := [form.isNone] } }

/-- A FOLD to the holder of position `k` (R149). -/
def foldAsk (n st : Nat) (k : Nat) : Ask :=
  { owner := .op st, kind := .fold, dest := holderOf n st k, f := { stripe := st, position := k } }

/-- The own parity word `o` read by a word-read claim. -/
def parityWordRead (s : State) (st o : Nat) : Claim :=
  { first := bankIndex s.straps st o, op := .wordRead, work := .parityRead st o }

/-- The own parity unit read by a burst-read claim. -/
def parityUnitRead (s : State) (st : Nat) : Claim :=
  { first := bankIndex s.straps st 0, op := .burstRead s.w, work := .parityRead st 0 }

/-- The own parity word `o` written, good or void, by a word-write claim. -/
def parityWordWrite (s : State) (st o : Nat) (form : Option Word) : Claim :=
  { first := bankIndex s.straps st o, op := .wordWrite form, work := .parityWrite st }

/-- The own parity unit written by a burst-write claim. -/
def parityUnitWrite (s : State) (st : Nat) (forms : List (Option Word)) : Claim :=
  { first := bankIndex s.straps st 0, op := .burstWrite forms, work := .parityWrite st }

/-- The operation asks for its next slot, unless it has an ask in the slot-request list (R66, R95). -/
def askNext (st : Nat) (s : State) : State :=
  if s.tu.asks.any (fun a => a.owner == .op st) then s
  else match opAt s st with
    | none => s
    | some op =>
      match op.toAsk with
      | [] => s
      | a :: rest => addAsk a (mapOp st (fun op => { op with toAsk := rest, outstanding := op.outstanding + 1 }) s)

/-- A step of the operation begins: its slots are asked for one after another, its claims become due together
(R95, R128). -/
def beginStep (st : Nat) (step : OpStep) (asks : List Ask) (claims : List Claim) (s : State) : State :=
  let s := mapOp st (fun op => { op with step := step, toAsk := asks, claims := op.claims + claims.length }) s
  askNext st (claims.foldl (fun s c => dueClaim .home c s) s)

/-- Every slot of the step has its outcome and every claim has completed. -/
def Op.complete (op : Op) : Bool := op.toAsk.isEmpty && op.outstanding == 0 && op.claims == 0

/-! ### Ranges and results -/

/-- The first offset and the length of the range a RECOMPUTE gathers (R133). -/
def RecList.range (w : Nat) : RecList → Nat × Nat
  | .whole => (0, w)
  | .offsets [] => (0, 0)
  | .offsets (o :: l) => (l.foldl min o, l.foldl max o + 1 - l.foldl min o)

/-- Whether an offset is listed (R133). -/
def RecList.lists : RecList → Nat → Bool
  | .whole, _ => true
  | .offsets l, o => l.contains o

/-- The positions of a stripe's data holders, ascending. -/
def positions (s : State) : List Nat := List.range s.d

/-- The positions but one, ascending. -/
def otherPositions (s : State) (k : Nat) : List Nat := (positions s).filter (· != k)

/-- The result recorded for a position. -/
def Op.result (op : Op) (k : Nat) : MemberResult := op.results.getD k .awaited

/-- A gathered unit's void flag at index `i` of its range. -/
def MemberResult.voidAt : MemberResult → Nat → Bool
  | .gathered v, i => v.getD i true
  | .awaited, _ => false
  | .folded _ _ _, _ => false
  | .unavailable, _ => false

/-- The positions whose gathered word at index `i` of the range was bad, ascending; those recorded unavailable are not
among them (R95, R128). -/
def badPositions (s : State) (op : Op) (i : Nat) : List Nat := (positions s).filter fun k => (op.result k).voidAt i

/-- Some member was recorded unavailable. -/
def Op.anyUnavailable (op : Op) : Bool := op.results.any (· == .unavailable)

/-- The parity words read in this step. -/
def Op.parityWord (op : Op) (i : Nat) : BankWord := op.parity.getD i voidWord

/-! ### End and reply -/

/-- The operation ends: a RECOVER or MERGE_WRITE that decided OK counts a recovered word, the accumulator is freed and
the entry's operation becomes absent (R96, R139). -/
def closeOp (st : Nat) (s : State) : State :=
  match opAt s st with
  | none => s
  | some op =>
    let s := if (op.kind == .recover || op.kind == .mergeWrite) && op.ok then countRecovered s else s
    let s := mapAcc op.acc (fun _ => {}) s
    s.setHome (s.home.mapEntry st fun e => { e with op := none })

/-- An AUDIT ends with a result (R155). -/
def closeAudit (st : Nat) (r : AuditResult) (s : State) : State := auditEnd r (closeOp st s)

/-- The reply of an operation (R96, R118 to R122, R130, R131, R170). -/
def opReplyMsg (op : Op) (acc : Accum) : Msg :=
  match op.kind with
  | .recover =>
    if op.ok then { kind := .recoverRsp, f := { payload := [op.data] } } else { kind := .recoverRsp, status := .lost }
  | .rebuild =>
    { kind := .rebuildRsp,
      f := { payload := List.zipWith (fun w v => if v then 0 else w) acc.words acc.flags, voids := acc.flags } }
  | _ => { kind := .writeRsp, status := if op.ok then .ok else .lost }

/-- The status of a write whose record waits for a RECOMPUTE: what was found for its own word (R116). -/
def answerStatus (w : Nat) (op : Op) (p : Place) : Status :=
  match op.result p.position with
  | .gathered v => if v.getD (p.offset - (op.list.range w).1) true then .lost else .ok
  | .awaited | .folded _ _ _ | .unavailable => .lost

/-- The WRITE_RSP of every answer record of the stripe is sent in the order recorded, and the places are freed
(R93, R116). A place is freed also when its WRITE_RSP is held for a reply-queue place (R35, log entry 40). -/
def sendAnswers (st : Nat) (op : Op) (s : State) : State :=
  let due := (s.home.places st).filter fun p => p.use == .answer
  let s := s.setHome { s.home with pool := s.home.pool.filter fun p => !(p.stripe == st && p.use == .answer) }
  due.foldl (fun s p => tellRequester p.who { kind := .writeRsp, status := answerStatus s.w op p } s) s

/-- Only the reply is left. To a peer: dropped, queued or held; the operation ends once its reply is disposed of, a
REBUILD's when it is delivered, dropped or removed (R96, R170). -/
def replyOp (st : Nat) (s : State) : State :=
  match opAt s st with
  | none => s
  | some op =>
    let m := opReplyMsg op (accAt s op.acc)
    match op.who with
    | .peer src tag seq =>
      let m := { m with dest := .station src, tag := tag, seq := seq }
      if replyDropped s m then closeOp st (filterDone m s)
      else if s.link.waiters.isEmpty && decide (0 < freePlaces s) then
        if op.kind == .rebuild then
          pushReply { msg := m, op := some st } (filterDone m (mapOp st (fun op => { op with step := .reply }) s))
        else pushReply { msg := m } (filterDone m (closeOp st s))
      else
        let s := mapOp st (fun op => { op with step := .reply }) s
        s.setLink { s.link with waiters := s.link.waiters ++ [.reply { msg := m, op := some st }] }
    | .own t => ownReply t m (closeOp st s)
    | .internalList => closeOp st (sendAnswers st op s)
    | .internalRebuild => rebuildAdvance (closeOp st s)
    | .internalAudit | .nobody => closeOp st s

/-! ### Decisions -/

/-- RECOVER (R129 to R131). -/
def decideRecover (st : Nat) (op : Op) (s : State) : State :=
  let a := accAt s op.acc
  let o := op.offset
  if a.flag o then
    let targets := (positions s).filter fun k => k == op.position || (op.result k).voidAt 0
    beginStep st .store (targets.map (storeAsk s.n st o none)) [parityWordWrite s st o none]
      (mapOp st (fun op => { op with ok := false }) s)
  else
    beginStep st .store [storeAsk s.n st o (some (a.word o)) op.position] []
      (mapOp st (fun op => { op with ok := true, data := a.word o }) s)

/-- MERGE_WRITE (R118, R119). -/
def decideMerge (st : Nat) (op : Op) (s : State) : State :=
  let a := accAt s op.acc
  let o := op.offset
  if a.flag o then
    let targets := (positions s).filter fun k => k == op.position || (op.result k).voidAt 0
    beginStep st .store (targets.map (storeAsk s.n st o none)) [parityWordWrite s st o none]
      (mapOp st (fun op => { op with ok := false }) s)
  else
    let merged := mergeLanes op.lanes op.data (a.word o)
    let gathered := a.word o ^^^ (op.parityWord 0).data
    beginStep st .store [storeAsk s.n st o (some merged) op.position]
      [parityWordWrite s st o (some (gathered ^^^ merged))] (mapOp st (fun op => { op with ok := true }) s)

/-- DEGRADED_WRITE (R121, R122). -/
def decideDegraded (st : Nat) (op : Op) (s : State) : State :=
  let a := accAt s op.acc
  let o := op.offset
  if a.flag o then
    beginStep st .store ((badPositions s op 0).map (storeAsk s.n st o none)) [parityWordWrite s st o none]
      (mapOp st (fun op => { op with ok := false }) s)
  else
    let form := if op.lanes == 0xF#4 then a.word o ^^^ op.data
      else a.word o ^^^ (op.parityWord 0).data ^^^ mergeLanes op.lanes op.data (a.word o)
    beginStep st .store [] [parityWordWrite s st o (some form)] (mapOp st (fun op => { op with ok := true }) s)

/-- A parity word as an accumulator leaves it: good with its XOR, or void (R134). -/
def accForm (a : Accum) (o : Nat) : Option Word := if a.flag o then none else some (a.word o)

/-- RECOMPUTE (R134, R163). -/
def decideRecompute (st : Nat) (op : Op) (s : State) : State :=
  let a := accAt s op.acc
  match op.list with
  | .offsets l => beginStep st .store [] (l.map fun o => parityWordWrite s st o (accForm a o)) s
  | .whole => beginStep st .store [] [parityUnitWrite s st ((List.range s.w).map (accForm a))] s

/-- REBUILD (R169). -/
def decideRebuild (st : Nat) (op : Op) (s : State) : State :=
  let a := accAt s op.acc
  let flagged := (List.range s.w).filter a.flag
  if flagged.isEmpty then replyOp st s
  else
    beginStep st .store (flagged.flatMap fun o => (badPositions s op o).map (storeAsk s.n st o none))
      [parityUnitWrite s st ((List.range s.w).map fun o => if a.flag o then none else some (op.parityWord o).data)] s

/-- AUDIT: the work of the first offset of a repair set begins, or the audit ends repaired (R152, R153). -/
def auditOffset (st : Nat) (repair : List Nat) (s : State) : State :=
  match repair with
  | [] => closeAudit st .repaired s
  | o :: _ =>
    match opAt s st with
    | none => s
    | some op =>
      let s := mapAcc op.acc (fun _ => freshAccum s.w) s
      let s := mapOp st (fun op => { op with repairSet := repair, results := List.replicate s.d .awaited, parity := [] }) s
      beginStep st .offGather ((positions s).map (gatherAsk s.n st o 1)) [parityWordRead s st o] s

/-- Whether offset `o` is in the repair set: some data word or the parity word was found bad there (R152). -/
def inRepairSet (op : Op) (o : Nat) : Bool :=
  op.parityBad.contains o || op.results.any fun r =>
    match r with
    | .folded _ bad many => !many && bad.contains o
    | .gathered v => v.getD o false
    | .awaited | .unavailable => false

/-- The repair set, ascending (R152). -/
def repairSetOf (w : Nat) (op : Op) : List Nat := (List.range w).filter (inRepairSet op)

/-- The fold of a recorded FOLD_RSP. -/
def MemberResult.foldValue : MemberResult → Word
  | .folded w _ _ => w
  | .awaited | .gathered _ | .unavailable => 0

/-- A FOLD_RSP that lists a bad word. -/
def MemberResult.foldBad : MemberResult → Bool
  | .folded _ bad many => many || !bad.isEmpty
  | .awaited | .gathered _ | .unavailable => false

/-- A FOLD_RSP with MANY set (R152). -/
def MemberResult.foldMany : MemberResult → Bool
  | .folded _ _ many => many
  | .awaited | .gathered _ | .unavailable => false

/-- AUDIT, when every fold and the parity burst are in: no result, repair, clean or resync (R149, R152, R154). -/
def decideFold (st : Nat) (op : Op) (s : State) : State :=
  if op.anyUnavailable then closeAudit st .noResult s
  else if op.results.any (·.foldBad) || !op.parityBad.isEmpty then
    let many := (positions s).filter fun k => (op.result k).foldMany
    if many.isEmpty then auditOffset st (repairSetOf s.w op) s
    else beginStep st .many (many.map (gatherAsk s.n st 0 s.w)) [] s
  else if foldUnit op.parity == xorWords (op.results.map (·.foldValue)) then closeAudit st .clean s
  else
    let s := mapAcc op.acc (fun _ => freshAccum s.w) s
    let s := mapOp st (fun op => { op with results := List.replicate s.d .awaited }) s
    beginStep st .syncGather ((positions s).map (gatherAsk s.n st 0 s.w)) [] s

/-- AUDIT, when the gathers and the parity word of an offset are in (R153). -/
def decideOffset (st : Nat) (op : Op) (s : State) : State :=
  let o := op.repairSet.headD 0
  let a := accAt s op.acc
  let bad := badPositions s op 0
  let parityBad := !isGood (op.parityWord 0)
  match bad, parityBad with
    | [], false => auditOffset st (op.repairSet.drop 1) s
    | [k], false => beginStep st .offStore [storeAsk s.n st o (some (a.word o)) k] [] s
    | [], true => beginStep st .offStore [] [parityWordWrite s st o (some (a.word o))] s
    | bad, _ => beginStep st .offStore (bad.map (storeAsk s.n st o none)) [parityWordWrite s st o none] (causeAudit s)

/-- The operation's next step, when every result its step needs is in (R95, R96). -/
def opDecide (st : Nat) (op : Op) (s : State) : State :=
  match op.step with
  | .gather =>
    match op.kind with
    | .recover => decideRecover st op s
    | .mergeWrite => decideMerge st op s
    | .degradedWrite => decideDegraded st op s
    | .recompute => decideRecompute st op s
    | .rebuild => decideRebuild st op s
    | .audit => s
  | .store => replyOp st s
  | .reply => s
  | .fold => decideFold st op s
  | .many => auditOffset st (repairSetOf s.w op) s
  | .offGather => decideOffset st op s
  | .offStore => auditOffset st (op.repairSet.drop 1) s
  | .syncGather =>
    beginStep st .syncWrite [] [parityUnitWrite s st ((List.range s.w).map (accForm (accAt s op.acc)))] s
  | .syncWrite => closeAudit st .resync (causeAudit (countResync s))
  | .stopping => closeAudit st .noResult s

/-- The operation goes on when its step is complete. -/
def opAdvance (st : Nat) (s : State) : State :=
  match opAt s st with
  | none => s
  | some op => if op.complete then opDecide st op s else s

/-! ### Results handed to an operation -/

/-- The words of a GATHER_RSP at the offsets asked: none where flagged void or not delivered (R124, log entry 28). -/
def gatheredWords (count : Nat) (m : Msg) : List (Option Word) :=
  (List.range count).map fun i => if m.f.voids.getD i true then none else m.f.payload[i]?

/-- The steps of an AUDIT in which an unavailable member stops it at once (R150, R152 to R154; log entry 14). -/
def OpStep.stopsAtOnce : OpStep → Bool
  | .many | .syncGather | .offGather | .offStore => true
  | .gather | .store | .reply | .fold | .syncWrite | .stopping => false

/-- An unavailable member met in one of those steps: no further slot is asked (R150). -/
def stopAudit (st : Nat) (s : State) : State :=
  mapOp st (fun op => if op.step.stopsAtOnce then { op with step := .stopping, toAsk := [] } else op) s

/-- The steps whose gathered words go into the accumulator. -/
def OpStep.accumulates : OpStep → Bool
  | .gather | .offGather | .syncGather => true
  | .store | .reply | .fold | .many | .offStore | .syncWrite | .stopping => false

/-- A member's result recorded at its position. -/
def recordResult (st k : Nat) (r : MemberResult) (s : State) : State :=
  mapOp st (fun op => { op with results := setAt op.results k r }) s

/-- A member whose slot ended without its answer is unavailable for the operation: it is recorded so at its position, and
is not asked again (R95, R128; log entry 37). -/
def memberUnavailable (st k : Nat) (s : State) : State :=
  mapOp st (fun op => { op with
    results := setAt op.results k .unavailable, toAsk := op.toAsk.filter fun a => a.f.position != k }) s

/-- Gathered words, or their absence, go into the operation's accumulator at the offsets it works on (R85, R133). -/
def accumulate (st first : Nat) (ws : List (Option Word)) (s : State) : State :=
  match opAt s st with
  | none => s
  | some op =>
    if op.step.accumulates then mapAcc op.acc (fun a => a.contributeFrom op.list.lists first ws) s else s

/-- The outcome of a slot of an exclusive operation, for the request fields it carried (R95, R117, R128, R149 to R154). -/
def recordOutcome (st : Nat) (kind : Kind) (f : Fields) (o : Outcome) (s : State) : State :=
  match kind, o with
  | .gather, .replied m =>
    let ws := gatheredWords f.count m
    recordResult st f.position (.gathered (ws.map (·.isNone))) (accumulate st f.offset ws s)
  | .fold, .replied m => recordResult st f.position (.folded m.foldWord m.bad m.many) s
  | .store, .replied _ =>
    match opAt s st with
    | some op => if op.step == .offStore && f.voids == [false] then countRecovered s else s
    | none => s
  | .store, _ => stopAudit st (memberUnavailable st f.position s)
  | _, _ => stopAudit st (memberUnavailable st f.position (accumulate st f.offset (List.replicate f.count none) s))

/-- The outcome of a slot of an exclusive operation is handed to it; it goes on when its step is complete (R95). -/
def opOutcome (st : Nat) (kind : Kind) (f : Fields) (o : Outcome) (s : State) : State :=
  let s := mapOp st (fun op => { op with outstanding := op.outstanding - 1 }) s
  opAdvance st (recordOutcome st kind f o s)

/-- Parity words read are handed to the operation (R117, R129, R149, R153, R168). -/
def opParityRead (st first : Nat) (ws : List BankWord) (s : State) : State :=
  match opAt s st with
  | none => s
  | some op =>
    let s := mapOp st (fun op => { op with
      claims := op.claims - 1, parity := ws, parityBad := if op.step == .fold then badOffsets ws else op.parityBad }) s
    opAdvance st (if op.step.accumulates then
      accumulate st first (ws.map fun w => if isGood w then some w.data else none) s else s)

/-- A parity write of the operation has completed (R96, R128). -/
def opParityWritten (st : Nat) (s : State) : State :=
  opAdvance st (mapOp st (fun op => { op with claims := op.claims - 1 }) s)

/-! ### Start (R95) -/

/-- The operation kind of a wait item. -/
def WorkKind.opKind : WorkKind → OpKind
  | .recover => .recover
  | .rebuild => .rebuild
  | .audit => .audit
  | .recomputeWhole => .recompute
  | .mergeWrite => .mergeWrite
  | .degradedWrite => .degradedWrite
  | .write => .degradedWrite

/-- The operation a wait item becomes, in accumulator `acc` (R94, R95). -/
def opOfPlace (d acc : Nat) (p : Place) : Op :=
  { kind := p.kind.opKind, who := p.who, acc := acc, position := p.position, offset := p.offset, lanes := p.lanes,
    purpose := p.purpose, data := p.data, list := .whole, step := .gather, results := List.replicate d .awaited }

/-- The RECOMPUTE a pending recompute list becomes, in accumulator `acc` (R93, R95). -/
def opOfList (d acc : Nat) (l : RecList) : Op :=
  { kind := .recompute, who := .internalList, acc := acc, list := l, step := .gather,
    results := List.replicate d .awaited }

/-- The first step of an operation: its gathers or folds in ascending position order, and its parity read, if any
(R117, R129, R133, R149, R168). A RECOMPUTE reads no parity, as chapter 7 says of it and R133 lists its work; that R17
names RECOMPUTE among the parity reads is log entry 31. -/
def startWork (st : Nat) (op : Op) (s : State) : State :=
  match op.kind with
  | .recover | .mergeWrite =>
    beginStep st .gather ((otherPositions s op.position).map (gatherAsk s.n st op.offset 1))
      [parityWordRead s st op.offset] s
  | .degradedWrite =>
    beginStep st .gather ((otherPositions s op.position).map (gatherAsk s.n st op.offset 1))
      (if op.lanes == 0xF#4 then [] else [parityWordRead s st op.offset]) s
  | .recompute =>
    let r := op.list.range s.w
    beginStep st .gather ((positions s).map (gatherAsk s.n st r.1 r.2)) [] s
  | .rebuild =>
    beginStep st .gather ((otherPositions s op.position).map (gatherAsk s.n st 0 s.w)) [parityUnitRead s st] s
  | .audit => beginStep st .fold ((positions s).map (foldAsk s.n st)) [parityUnitRead s st] s

/-- The entry of a stripe takes accumulator `acc`, and its head starts (R85, R95). -/
def startOp (st acc : Nat) (s : State) : State :=
  match s.home.entry st with
  | none => s
  | some e =>
    let go := fun (op : Op) (clear : Option RecList) (s : State) =>
      let s := mapAcc acc (fun _ => freshAccum s.w) s
      let s := s.setHome (s.home.mapEntry st fun e => { e with op := some op, recompute := clear })
      startWork st op (s.setHome { s.home with accQueue := s.home.accQueue.filter (· != st) })
    match e.recompute with
    | some l => go (opOfList s.d acc l) none s
    | none =>
      match s.home.firstWait st with
      | none => s
      | some p =>
        go (opOfPlace s.d acc p) none
          (filterPark p.who false (freePlace (fun x => x.stripe == st && x.use == p.use) s))

end Sys2Proof.Machine
end

