-- ==== Sys2Proof/Machine/MemberOps.lean ====
section
/-! DEFINITION. Member writes and their outcomes (R91, R92, R97, R113 to R115), the repair queue (R135 to R137), the
outcome of a slot handed to its owner (R73), and the change of a view entry (R46, R47, R59). -/

namespace Sys2Proof.Machine

/-! ### Member writes -/

/-- The ask of a member write: an UPDATE, or a forwarded STORE when the stripe is stale here (R91, R97). -/
def memberAsk (s : State) (p : Place) : Ask :=
  if stale s p.stripe then
    { owner := .member p.stripe, kind := .store, dest := holderOf s.n p.stripe p.position,
      f := { stripe := p.stripe, position := p.position, offset := p.offset, count := 1, lanes := p.lanes,
             payload := [p.data], voids := [false] } }
  else
    { owner := .member p.stripe, kind := .update, dest := holderOf s.n p.stripe p.position,
      f := { stripe := p.stripe, position := p.position, offset := p.offset, lanes := p.lanes, payload := [p.data] } }

/-- The place of a stripe's member write in slot `tag` (R91). -/
def isMemberIn (st tag : Nat) (p : Place) : Bool := p.stripe == st && p.use == .member tag

/-- A write settles: its place is freed and its WRITE_RSP sent, to its requester if it still has one (R92, R97, R98). -/
def settleWrite (pred : Place → Bool) (p : Place) (status : Status) (s : State) : State :=
  tellRequester p.who { kind := .writeRsp, status := status } (freePlace pred s)

/-- A member write becomes an answer record with HOLD; without a requester its place is freed (R93, R98). -/
def toAnswer (pred : Place → Bool) (p : Place) (s : State) : State :=
  if p.who == .nobody then freePlace pred s
  else holdRequester p.who (movePlace pred (fun x => { x with use := .answer }) s)

/-- A member write becomes a conversion at the end of the head section, with HOLD; without a requester its place is
freed (R92, R98). -/
def toConversion (pred : Place → Bool) (k : WorkKind) (p : Place) (s : State) : State :=
  if p.who == .nobody then freePlace pred s
  else holdRequester p.who (movePlace pred (fun x => { x with kind := k, use := .waitHead }) s)

/-- The outcome of an UPDATE (R92). The applications pending and the answer records of a stripe are as many as arise: no
bound of 8 is kept (R82, R93; log entry 42). -/
def updateOutcome (pred : Place → Bool) (p : Place) (o : Outcome) (s : State) : State :=
  match o with
  | .replied m =>
    match m.status with
    | .ok =>
      dueClaim .home
        { first := bankIndex s.straps p.stripe p.offset, op := .merge (.delta (m.f.payload.headD 0)),
          work := .delta p.stripe p.offset }
        (movePlace pred (fun x => { x with use := .applying }) s)
    | .mergeBad => toConversion pred .mergeWrite p s
    | .oldBad | .bad | .lost => toAnswer pred p (listRecompute p.stripe p.offset s)
  | .notReady | .unavailable => toConversion pred .degradedWrite p s

/-- The outcome of a forwarded STORE (R97). -/
def forwardOutcome (pred : Place → Bool) (p : Place) (o : Outcome) (s : State) : State :=
  match o with
  | .replied m => settleWrite pred p (if m.status == .ok then .ok else .lost) s
  | .notReady | .unavailable => settleWrite pred p .lost s

/-- The outcome of the member write of a stripe in slot `tag` (R92, R97). -/
def memberOutcome (st tag : Nat) (kind : Kind) (o : Outcome) (s : State) : State :=
  match s.home.pool.find? (isMemberIn st tag) with
  | none => s
  | some p => if kind == .store then forwardOutcome (isMemberIn st tag) p o s else updateOutcome (isMemberIn st tag) p o s

/-- The oldest application of a stripe: claims of the home complete in the order they became due, R19, and a place moves
to the end of the pool when its application begins. -/
def isApplying (st : Nat) (p : Place) : Bool := p.stripe == st && p.use == .applying

/-- A DELTA application's claim has completed, the parity word having been read as `old` (R113, R114). -/
def deltaApplied (st o : Nat) (old : BankWord) (s : State) : State :=
  match s.home.pool.find? (isApplying st) with
  | none => s
  | some p =>
    if isGood old then settleWrite (isApplying st) p .ok s
    else toAnswer (isApplying st) p (listRecompute st o s)

/-! ### The repair queue (R135 to R137) -/

/-- Heads whose home is unavailable are removed, each counted as a drop, until one has its home available (R136). -/
def judgeRepair (s : State) : List (Nat × Nat) → Nat × List (Nat × Nat)
  | [] => (0, [])
  | (st, o) :: rest =>
    if (viewAt s (homeOf s.n st)).state.available then (0, (st, o) :: rest)
    else
      let r := judgeRepair s rest
      (r.1 + 1, r.2)

/-- The RECOVER of purpose REPAIR for a word this station holds (R136). -/
def repairAsk (s : State) (st o : Nat) : Ask :=
  { owner := .repair, kind := .recover, dest := homeOf s.n st,
    f := { stripe := st, position := roleOf s.n s.own st, offset := o, lanes := 0xF#4, purpose := .repair } }

/-- When no ask or slot is outstanding for the head, it is judged: dropped, or asked for (R136). -/
def repairNext (s : State) : State :=
  if s.holder.repairOut then s
  else
    let r := judgeRepair s s.holder.repair
    let s := countDrops r.1 (s.setHolder { s.holder with repair := r.2 })
    match r.2 with
    | [] => s
    | (st, o) :: _ => addAsk (repairAsk s st o) (s.setHolder { s.holder with repairOut := true })

/-- A word is offered to the repair queue (R135). -/
def repairOffer (st o : Nat) (s : State) : State :=
  if s.holder.repair.contains (st, o) then s
  else if Config.repairPlaces ≤ s.holder.repair.length then countDrops 1 s
  else repairNext (s.setHolder { s.holder with repair := s.holder.repair ++ [(st, o)] })

/-- The outcome of the repair's slot: its head is removed, and the next head is judged (R137). -/
def repairOutcome (o : Outcome) (s : State) : State :=
  let s := s.setHolder { s.holder with repair := s.holder.repair.drop 1, repairOut := false }
  repairNext (match o with
    | .replied _ => s
    | .notReady | .unavailable => countDrops 1 s)

/-! ### Outcomes to owners (R73) -/

/-- A slot's outcome is handed to its owner; `x` is the slot as it was in its use, `t` its tag. -/
def handOutcome (t : Nat) (x : Slot) (o : Outcome) (s : State) : State :=
  match x.owner with
  | none => s
  | some (.port addr) => portOutcome addr o s
  | some (.member st) => memberOutcome st t x.kind o s
  | some (.op st) => opOutcome st x.kind x.f o s
  | some .sweep => sweepOutcome o s
  | some .repair => repairOutcome o s

/-- A slot ends with an outcome, which is handed to its owner (R73). -/
def finishSlot (t : Nat) (o : Outcome) (s : State) : State := handOutcome t (slotAt s t) o (endSlot t s)

/-! ### The change of a view entry (R46, R47) -/

/-- A message is addressed to station `j`. -/
def toStation (j : Nat) (m : OutMsg) : Bool := m.msg.dest == .station j

/-- A held reply to station `j`. -/
def Waiter.repliesTo (j : Nat) : Waiter → Bool
  | .reply m => toStation j m
  | .head => false

/-- Step 1: replies to `j` are withdrawn, queued or held (R36, R47). -/
def dropReplies (j : Nat) (s : State) : State :=
  let s := withdraw .reply (toStation j) s
  s.setLink { s.link with waiters := s.link.waiters.filter fun w => !w.repliesTo j }

/-- The tags of the slots in flight to `j`, lowest first (R47, R73). -/
def slotsTo (s : State) (j : Nat) : List Nat :=
  (List.range s.tu.slots.length).filter fun t => (slotAt s t).inFlight && (slotAt s t).dest == j

/-- A requester that is station `j`. -/
def Requester.isPeer (j : Nat) : Requester → Bool
  | .peer src _ _ => src == j
  | .own _ | .internalAudit | .internalRebuild | .internalList | .nobody => false

/-- A place whose requester is `j`: a wait item or an answer record is freed, a member write or an application loses
its requester (R98). -/
def loseRequester (j : Nat) (p : Place) : Option Place :=
  if p.who.isPeer j then
    (match p.use with
     | .member _ | .applying => some { p with who := .nobody }
     | .waitHead | .waitUrgent | .waitTail | .answer => none)
  else some p

/-- The stripes whose exclusive operation has only a reply to `j` left (R96, R170). -/
def repliesDue (s : State) (j : Nat) : List Nat :=
  (s.home.table.filter fun e =>
    match e.op with
    | some op => op.who.isPeer j && op.step == .reply
    | none => false).map (·.stripe)

/-- An exclusive operation whose requester is `j` loses it (R98). -/
def opLoses (j : Nat) (op : Op) : Op := if op.who.isPeer j then { op with who := .nobody } else op

/-- Step 3: the home's part of the change (R98). Operations with only their reply to `j` left end. -/
def loseAtHome (j : Nat) (s : State) : State :=
  let due := repliesDue s j
  let h := s.home
  let s := s.setHome { h with
    pool := h.pool.filterMap (loseRequester j), table := h.table.map fun e => { e with op := e.op.map (opLoses j) } }
  due.foldl (fun s st => closeOp st s) s

/-- Step 5: requests from `j` leave the inbound request queue; when the head leaves, its wait for a place ends (R47). -/
def dropInbound (j : Nat) (s : State) : State :=
  let gone := fun (m : Msg) => m.source == j && m.kind.isRequest
  let waiters := if (s.link.inbound.take 1).any gone then s.link.waiters.filter (· != .head) else s.link.waiters
  s.setLink { s.link with inbound := s.link.inbound.filter fun m => !gone m, waiters := waiters }

/-- The whole change of view[j] to JOINING or FAILED, before any outcome is handed out (R47); with it the slots ended,
as they were. A waiting urgent audit is withdrawn when `j` stops being ACTIVE (R147). -/
def viewDown (j : Nat) (v : ViewEntry) (s : State) : State × List (Nat × Slot) :=
  let old := viewAt s j
  let s := setView j v s
  let s := dropReplies j s
  let ended := (slotsTo s j).map fun t => (t, slotAt s t)
  let s := ended.foldl (fun s e => endSlot e.1 s) s
  let s := loseAtHome j s
  let s := s.setFilter (s.filter.filter fun e => e.src != j)
  let s := dropInbound j s
  let s := causeView (old.state != v.state) s
  (if old.state == .active then withdrawUrgent s else s, ended)

/-- The outcomes of the slots a view change ended are handed to their owners, lowest tag first (R47, R73). -/
def handEnded (ended : List (Nat × Slot)) (s : State) : State :=
  ended.foldl (fun s e => handOutcome e.1 e.2 .unavailable s) s

/-- An unreachable report about `j`: an entry JOINING, REBUILDING or ACTIVE is declared FAILED and FAIL to ALL is
queued; otherwise it is ignored (R59). -/
def reportUnreachable (j : Nat) (s : State) : State :=
  match (viewAt s j).state with
  | .absent | .failed => s
  | .joining | .rebuilding | .active =>
    let v := viewAt s j
    let r := viewDown j { v with state := .failed } s
    settle (handEnded r.2 (queueNotice (failNotice .all j v.inc) r.1))

end Sys2Proof.Machine
end

