-- ==== Sys2Proof/Machine/JoinOps.lean ====
section
/-! DEFINITION. The start of joining, the join decision and expulsion (R52 to R55, R61 to R63). -/

namespace Sys2Proof.Machine

/-- A start of joining (R53): the incarnation increases, the own state is JOINING, the view is cleared but for the own
entry, the working set is empty, no window runs, and a HELLO to ALL is queued. -/
def startJoining (mode : JoinMode) (s : State) : State :=
  let inc := s.mem.ownInc + 1
  let s := s.setMem { s.mem with
    ownState := .joining
    ownInc := inc
    joinMode := mode
    views := setAt (List.replicate 8 {}) s.own { state := .joining, inc := inc, mode := mode }
    working := []
    window := .closed }
  queueNotice (helloNotice mode) s

/-- The own HELLO has not been delivered: it is still in the notice queue (R54). -/
def helloPending (s : State) : Bool := s.link.notices.q.any fun m => m.msg.kind == .hello

/-- Some station answered as working and is REBUILDING or ACTIVE in the view (R55). A peer that joined again after its
answer and is REBUILDING or ACTIVE again by the decision counts by its record (log entry 39). -/
def workingPeer (s : State) : Bool :=
  s.mem.working.any fun e => e.2 != .joining && (viewAt s e.1).state.available

/-- The join decision (R55): REBUILDING with a working peer, otherwise FILLING when COLD and ACTIVE when WARM. -/
def joinDecision (s : State) : State :=
  let peer := workingPeer s
  let s := s.setMem { s.mem with working := [], window := .closed }
  if peer then
    let s := queueNotice (stateNotice .rebuilding) (setOwnState .rebuilding s)
    beginStripe 0 (s.setSweep { s.sweep with rebuildPtr := 0 })
  else match s.mem.joinMode with
    | .cold =>
      let s := setOwnState .filling s
      fillClaim 0 (s.setMem { s.mem with fillProgress := 0 })
    | .warm => goActive s

/-- A started entry ends at expulsion: a read completes with ERR, a write with write fault EXPELLED (R193). -/
def expelEntry (s : State) (e : LocalEntry) : State :=
  if e.isWrite then writeFault e.addr .expelled s else completeRead 0 true s

/-- The started entries end, oldest first, and leave; the others are kept (R193). -/
def expelEntries (s : State) : State :=
  let s := (s.port.entries.filter (·.started)).foldl expelEntry s
  s.setPort { s.port with entries := s.port.entries.filter fun e => !e.started }

/-- The link at expulsion: outbound replies, inbound queues, deferred flag and head counts kept; requests withdrawn,
notices emptied, held replies discarded (R35, R42). -/
def expelLink (l : Link) : Link :=
  { l with
    replies := { l.replies with q := l.replies.q.map fun m => { m with op := none } }
    requests := {}
    notices := {}
    waiters := l.waiters.filter (· == .head)
    bus := (l.bus.detach .request).detach .notice }

/-- The bank at expulsion, the claim in progress completed: no claim waits, the pointer names the holder (R20). -/
def expelBank (b : Bank) : Bank := { words := b.words, pointer := .holder }

/-- The join mode of the join that follows an expulsion (R52). -/
def expelMode (s : State) : JoinMode :=
  match s.mem.ownState with
  | .rebuilding | .active => .warm
  | .inert | .joining | .filling => s.mem.joinMode

/-- Some other station's entry holds a state other than ABSENT (R46). -/
def viewHeld (s : State) : Bool :=
  (List.range s.n).any fun j => j != s.own && (viewAt s j).state != .absent

/-- Expulsion, and the start of joining that follows it (R62, R63). It is one change: the claim in progress completes
whole in it, its void words counted, before the start of joining (R20, R62, R159; log entry 36). -/
def expel (s : State) : State :=
  let mode := expelMode s
  let s := finishClaim s
  let s := causeView (viewHeld s) s
  let s := expelEntries s
  let s := s.setMem { s.mem with fillProgress := 0 }
  let s := s.setTu { slots := s.tu.slots.map fun x => { x.stopped with state := .free, owner := none }, asks := [] }
  let s := s.setFilter []
  let s := s.setHome {}
  let s := s.setHolder {}
  let s := s.setSweep { auditPtr := s.own }
  let s := s.setLink (expelLink s.link)
  let s := s.setBank (expelBank s.bank)
  startJoining mode s

end Sys2Proof.Machine
end

