-- ==== Sys2Proof/Machine/Members.lean ====
section
/-! DEFINITION. Membership's commands: the notices and HELLO_RSP dispatched, the join window, NOT_READY while joining
(R37, R38, R48 to R51, R54, R56, R61). -/

namespace Sys2Proof.Machine

/-- The head of the inbound request queue, when it is of this kind and the station dispatches (R37). -/
def inboundOf (k : Kind) (s : State) : Option Msg :=
  if live s then s.link.inbound.head?.bind fun m => if m.kind == k then some m else none else none

/-- HELLO: in the reply-queue place it needs, the sender's entry becomes JOINING with the HELLO's incarnation and mode,
its work ends, and a HELLO_RSP is queued; the outcomes of its slots are handed out after that (R47, R48; log
entry 11). -/
def execHello (s : State) : Host.Outcome State Fault Refusal :=
  match inboundOf .hello s with
  | none => .next s
  | some m =>
    if !headPlace s then .next (waitHead s)
    else
      let r := viewDown m.source { state := .joining, inc := m.sInc, mode := m.mode } (popInbound s)
      let rsp : Msg := { kind := .helloRsp, dest := .station m.source, nState := shownState s.mem.ownState }
      .next (settle (handEnded r.2 (pushReply { msg := rsp } r.1)))

/-- HELLO_RSP: while the join window runs, the sender's state goes into the working set; otherwise it is discarded
(R38, R49). -/
def execHelloRsp (s : State) : Host.Outcome State Fault Refusal :=
  match s.link.inbox with
  | [] => .next s
  | m :: rest =>
    if m.kind != .helloRsp then .next s
    else
      let s := s.setLink { s.link with inbox := rest }
      if s.mem.window == .closed then .next s
      else .next (s.setMem { s.mem with
        working := (s.mem.working.filter fun e => e.1 != m.source) ++ [(m.source, m.nState)] })

/-- The entry a dispatched STATE leaves (R50). -/
def stateEntry (v : ViewEntry) (m : Msg) : ViewEntry :=
  match v.state with
  | .absent => { v with state := m.nState.toView, inc := m.sInc }
  | .joining => if v.inc == m.sInc && m.nState != .joining then { v with state := m.nState.toView } else v
  | .rebuilding => if v.inc == m.sInc && m.nState == .active then { v with state := .active } else v
  | .active | .failed => v

/-- STATE (R50). -/
def execState (s : State) : Host.Outcome State Fault Refusal :=
  match inboundOf .state s with
  | none => .next s
  | some m =>
    let v := viewAt s m.source
    .next (causeView ((stateEntry v m).state != v.state) (setView m.source (stateEntry v m) (popInbound s)))

/-- FAIL: of the own current incarnation, expulsion (R61); of another station, its entry becomes FAILED when JOINING,
REBUILDING or ACTIVE in that incarnation (R51). -/
def execFail (s : State) : Host.Outcome State Fault Refusal :=
  match inboundOf .fail s with
  | none => .next s
  | some m =>
    let s := popInbound s
    if m.target == s.own then
      if m.targetInc == s.mem.ownInc then .next (expel s) else .next s
    else
      let v := viewAt s m.target
      match v.state with
      | .absent | .failed => .next s
      | .joining | .rebuilding | .active =>
        if v.inc == m.targetInc then
          let r := viewDown m.target { v with state := .failed } s
          .next (settle (handEnded r.2 r.1))
        else .next s

/-- JOIN_WINDOW_EXPIRY: the decision is taken when the HELLO has been delivered; otherwise it waits for that (R54). -/
def execJoinWindowExpiry (s : State) : Host.Outcome State Fault Refusal :=
  match s.mem.window with
  | .closed | .expired => .next s
  | .running _ =>
    if helloPending s then .next (s.setMem { s.mem with window := .expired }) else .next (settle (joinDecision s))

/-- The answer NOT_READY to a request (R23). -/
def notReadyTo (m : Msg) : Msg := { kind := .notReady, dest := .station m.source, tag := m.tag, seq := m.seq }

/-- JOINING_NOT_READY: while JOINING or FILLING, the request at the head is answered NOT_READY in the place it needs
(R37, R56). -/
def execJoiningNotReady (s : State) : Host.Outcome State Fault Refusal :=
  match s.link.inbound with
  | [] => .next s
  | m :: _ =>
    if m.kind.isRequest && live s && (s.mem.ownState == .joining || s.mem.ownState == .filling) then
      if headPlace s then .next (answerHead (notReadyTo m) (popInbound s)) else .next (waitHead s)
    else .next s

end Sys2Proof.Machine
end

