-- ==== Sys2Proof/Machine/HolderEngine.lean ====
section
/-! DEFINITION. The duplicate filter at the head of the inbound queue (R80), and the holder engine: a request taken, its
claim, its answer (R108 to R111, R124 to R126, R148, R160). -/

namespace Sys2Proof.Machine

/-- FILTER_REPEAT: a repeated request at the head is answered with HOLD or with its cached reply in the place that
needs, or discarded (R80). A repeat that waits for its place is weighed anew, by its entry as it stands when the place
is there (log entry 33). -/
def execFilterRepeat (s : State) : Host.Outcome State Fault Refusal :=
  match s.link.inbound with
  | [] => .next s
  | m :: _ =>
    if m.kind.isRequest && serving s then
      match filterVerdict s.filter m with
      | .new => .next s
      | .discard => .next (popInbound s)
      | .repeatHold =>
        if headPlace s then
          .next (answerHead { kind := .hold, dest := .station m.source, tag := m.tag, seq := m.seq } (popInbound s))
        else .next (waitHead s)
      | .repeatReply c =>
        if headPlace s then
          .next (answerHead { kind := c.kind, dest := .station m.source, tag := m.tag, seq := m.seq, status := c.status,
                              f := { payload := c.word.toList } } (popInbound s))
        else .next (waitHead s)
    else .next s

/-- The holder holds back requests for the stripe whose rebuilt or voided unit is being stored (R160). -/
def heldBack (s : State) (st : Nat) : Bool :=
  s.mem.ownState == .rebuilding && s.sweep.rebuildStep == .storing && s.sweep.rebuildPtr == st

/-- A STORE with lanes is a direct write; `direct` says which of the two a command takes (R22, R126). -/
def fitsStore (k : Kind) (direct : Bool) (f : Fields) : Bool := k != .store || (f.lanes != 0) == direct

/-- The claim that serves a request at the holder (R109, R110, R124 to R126, R148). -/
def holderClaim (s : State) (k : Kind) (f : Fields) : Claim :=
  { first := bankIndex s.straps f.stripe f.offset
    op := match k with
      | .update => .merge (.update f.lanes (f.payload.headD 0))
      | .gather => .burstRead f.count
      | .store =>
        if f.lanes == 0 then .burstWrite (formsOf f.payload f.voids) else .merge (.direct f.lanes (f.payload.headD 0))
      | .fold => .burstRead s.w
      | _ => .wordRead
    work := .holder }

/-- The holder works on a request and presents its claim (R108). -/
def holderBegin (who : Requester) (k : Kind) (f : Fields) (s : State) : State :=
  dueClaim .holder (holderClaim s k f) (s.setHolder { s.holder with work := some { who := who, kind := k, f := f } })

/-- The request the holder may take: the head of the inbound queue when it is new to the filter, or the first hand-off
that is not held back; of the command's kind (R37, R75, R78, R160). -/
def holderRequest (k : Kind) (direct : Bool) (via : Via) (s : State) : Option (Requester × Fields) :=
  if !serving s || s.holder.work.isSome then none
  else match via with
    | .inbound =>
      match s.link.inbound with
      | [] => none
      | m :: _ =>
        if m.kind == k && fitsStore k direct m.f && filterVerdict s.filter m == .new && !heldBack s m.f.stripe then
          some (.peer m.source m.tag m.seq, m.f) else none
    | .own =>
      match s.holder.handoffs.find? fun t => !heldBack s (slotAt s t).f.stripe with
      | none => none
      | some t =>
        let x := slotAt s t
        if x.kind == k && fitsStore k direct x.f then some (.own t, x.f) else none

/-- The request leaves its queue: the inbound head, or the hand-off (R37, R75). -/
def holderPop (who : Requester) (s : State) : State :=
  match who with
  | .own t => s.setHolder { s.holder with handoffs := s.holder.handoffs.erase t }
  | _ => popInbound s

/-- The filter's entry for a request taken from the inbound head (R78). -/
def takeInFilter (k : Kind) (who : Requester) (s : State) : State :=
  match who with
  | .peer src tag seq => filterTake { kind := k, source := src, tag := tag, seq := seq } s
  | .own _ | .internalAudit | .internalRebuild | .internalList | .nobody => s

/-- The holder takes a request when it has the reply-queue place its answer needs: NOT_READY for a stale stripe with no
claim, otherwise its claim is presented (R108, R109, R110, R124 to R126, R148). -/
def holderTake (k : Kind) (direct : Bool) (via : Via) (s : State) : State :=
  match holderRequest k direct via s with
  | none => s
  | some (who, f) =>
    if via == .inbound && !headPlace s then waitHead s
    else if stale s f.stripe then firstAnswer who { kind := .notReady } (holderPop who s)
    else holderBegin who k f (takeInFilter k who (holderPop who s))

/-- READ at the holder (R109). -/
def execRead (via : Via) (s : State) : Host.Outcome State Fault Refusal := .next (holderTake .read false via s)
/-- UPDATE at the holder (R110). -/
def execUpdate (via : Via) (s : State) : Host.Outcome State Fault Refusal := .next (holderTake .update false via s)
/-- GATHER at the holder (R124). -/
def execGather (via : Via) (s : State) : Host.Outcome State Fault Refusal := .next (holderTake .gather false via s)
/-- STORE without lanes at the holder (R125). -/
def execStore (via : Via) (s : State) : Host.Outcome State Fault Refusal := .next (holderTake .store false via s)
/-- STORE with lanes, a direct write, at the holder (R126). -/
def execDirectWrite (via : Via) (s : State) : Host.Outcome State Fault Refusal := .next (holderTake .store true via s)
/-- FOLD at the holder (R148). -/
def execFold (via : Via) (s : State) : Host.Outcome State Fault Refusal := .next (holderTake .fold false via s)

/-! ### The answer at the claim's completion -/

/-- The answer of the holder from the words its claim read (R109, R110, R111, R124, R125, R126, R148). -/
def holderAnswer (k : Kind) (f : Fields) (reads : List BankWord) : Msg :=
  let old := reads.headD voidWord
  match k with
  | .update =>
    if isGood old then
      { kind := .delta, f := { payload := [old.data ^^^ mergeLanes f.lanes (f.payload.headD 0) old.data] } }
    else if goodIn (~~~ f.lanes) old then { kind := .delta, status := .oldBad }
    else { kind := .delta, status := .mergeBad }
  | .gather =>
    { kind := .gatherRsp,
      f := { stripe := f.stripe, offset := f.offset, count := f.count,
             payload := reads.map fun w => if isGood w then w.data else 0, voids := reads.map fun w => !isGood w } }
  | .store =>
    if f.lanes == 0 || goodIn (~~~ f.lanes) old then { kind := .storeRsp } else { kind := .storeRsp, status := .mergeBad }
  | .fold =>
    { kind := .foldRsp, foldWord := foldUnit reads, bad := (badOffsets reads).take Config.badListLimit,
      many := decide (Config.badListLimit < (badOffsets reads).length) }
  | _ =>
    if goodIn f.lanes old then { kind := .readRsp, f := { payload := [maskLanes f.lanes old.data] } }
    else { kind := .readRsp, status := .bad }

/-- A READ's word is offered to the repair queue when it was good in its lanes and bad in another (R109, R135). -/
def offersRepair (k : Kind) (f : Fields) (reads : List BankWord) : Bool :=
  k == .read && goodIn f.lanes (reads.headD voidWord) && !isGood (reads.headD voidWord)

/-- The holder's claim has completed: the answer goes out in the place reserved for it, or to the own slot, and the word
may be offered for repair (R108, R135). -/
def holderDone (reads : List BankWord) (s : State) : State :=
  match s.holder.work with
  | none => s
  | some w =>
    let s := firstAnswer w.who (holderAnswer w.kind w.f reads) (s.setHolder { s.holder with work := none })
    if offersRepair w.kind w.f reads then repairOffer w.f.stripe w.f.offset s else s

end Sys2Proof.Machine
end

