-- ==== Sys2Proof/Machine/HomeEngine.lean ====
section
/-! DEFINITION. The home engine's commands: WRITE, RECOVER and REBUILD taken, the start of an exclusive operation, the
release of a parked WRITE (R86 to R91, R95, R97). -/

namespace Sys2Proof.Machine

/-- The request the home may take: the inbound head when it is new to the filter, or the first hand-off; of the
command's kind. An urgent audit or an own RECOMPUTE that can be admitted comes first (R37, R75, R78, R147, R162). -/
def homeRequest (k : Kind) (via : Via) (s : State) : Option (Requester × Fields) :=
  if !serving s || admissionDue s then none
  else match via with
    | .inbound =>
      match s.link.inbound with
      | [] => none
      | m :: _ =>
        if m.kind == k && filterVerdict s.filter m == .new then some (.peer m.source m.tag m.seq, m.f) else none
    | .own =>
      match s.home.handoffs with
      | [] => none
      | t :: _ => if (slotAt s t).kind == k then some (.own t, (slotAt s t).f) else none

/-- The request leaves its queue: the inbound head, or the hand-off (R37, R75). -/
def homePop (who : Requester) (s : State) : State :=
  match who with
  | .own _ => s.setHome { s.home with handoffs := s.home.handoffs.drop 1 }
  | _ => popInbound s

/-- The request is answered at once and not taken for work: BUSY or NOT_READY; the filter keeps its entry (R78, R87). -/
def turnAway (k : Kind) (who : Requester) (s : State) : State := firstAnswer who { kind := k } (homePop who s)

/-- The request is refused BUSY, and counted (R87, R141). -/
def refuseBusy (who : Requester) (s : State) : State := turnAway .busy who (countBusy s)

/-- The request is answered LOST at once; the reply is cached (R86, R97). -/
def answerLost (req rsp : Kind) (who : Requester) (s : State) : State :=
  firstAnswer who { kind := rsp, status := .lost } (takeInFilter req who (homePop who s))

/-- The request is parked in its stripe's wait list, with HOLD (R88, R89). -/
def parkRequest (k : Kind) (p : Place) (s : State) : State :=
  settle (firstAnswer p.who { kind := .hold } (filterPark p.who true (takePlace p (takeInFilter k p.who (homePop p.who s)))))

/-- The wait item of a request. -/
def waitItem (k : WorkKind) (who : Requester) (f : Fields) : Place :=
  { stripe := f.stripe, kind := k, who := who, position := f.position, offset := f.offset, lanes := f.lanes,
    purpose := f.purpose, data := f.payload.headD 0, use := .waitTail }

/-- Runs `g` when the head has the reply-queue place its first answer needs; otherwise it waits. A hand-off needs none
(R37, R75). -/
def inPlace (via : Via) (g : State → State) (s : State) : State :=
  if via == .inbound && !headPlace s then waitHead s else g s

/-- The entry of a stripe has an exclusive operation, a wait item or a pending recompute (R88). -/
def entryOccupied (s : State) (st : Nat) : Bool :=
  match s.home.entry st with
  | none => false
  | some e => e.op.isSome || e.recompute.isSome || (s.home.firstWait st).isSome

/-- A write is issued in slot `t` as a member write; an outcome at once is handed back (R91). -/
def issueMember (t : Nat) (p : Place) (s : State) : State :=
  let a := memberAsk s p
  let g := grantSlot a t s
  match g.2 with
  | none => g.1
  | some o => memberOutcome p.stripe t a.kind o g.1

/-- The home takes a WRITE: refused BUSY, parked, made a DEGRADED_WRITE or answered LOST when its holder is unavailable,
issued, or parked for want of a slot (R86, R87, R88, R97). A parked WRITE that can be released goes first (R91). -/
def homeWrite (via : Via) (s : State) : State :=
  match homeRequest .write via s with
  | none => s
  | some (who, f) =>
    let st := f.stripe
    if releaseDue s then s
    else if refusedBusy s st then inPlace via (refuseBusy who) s
    else if entryOccupied s st then inPlace via (parkRequest .write (waitItem .write who f)) s
    else if !reachable s (holderOf s.n st f.position) then
      if stale s st then inPlace via (answerLost .write .writeRsp who) s
      else inPlace via (parkRequest .write (waitItem .degradedWrite who f)) s
    else match slotAtOnce s, freeSlot s with
      | true, some t =>
        let p : Place := { waitItem .write who f with use := .member t }
        settle (issueMember t p (takePlace p (takeInFilter .write who (homePop who s))))
      | _, _ => inPlace via (parkRequest .write (waitItem .write who f)) s

/-- WRITE at the home (R88). -/
def execWrite (via : Via) (s : State) : Host.Outcome State Fault Refusal := .next (homeWrite via s)

/-- RECOVER at the home: for a stale stripe LOST or NOT_READY by its purpose, otherwise BUSY or parked (R86, R87, R89). -/
def execRecover (via : Via) (s : State) : Host.Outcome State Fault Refusal :=
  match homeRequest .recover via s with
  | none => .next s
  | some (who, f) =>
    .next (inPlace via (fun s =>
      if stale s f.stripe then
        match f.purpose with
        | .read => answerLost .recover .recoverRsp who s
        | .repair => turnAway .notReady who s
      else if refusedBusy s f.stripe then refuseBusy who s
      else parkRequest .recover (waitItem .recover who f) s) s)

/-- REBUILD at the home: NOT_READY for a stale stripe, otherwise BUSY or parked (R86, R87, R89). -/
def execRebuild (via : Via) (s : State) : Host.Outcome State Fault Refusal :=
  match homeRequest .rebuild via s with
  | none => .next s
  | some (who, f) =>
    .next (inPlace via (fun s =>
      if stale s f.stripe then turnAway .notReady who s
      else if refusedBusy s f.stripe then refuseBusy who s
      else parkRequest .rebuild (waitItem .rebuild who f) s) s)

/-- EXCLUSIVE_OP_START: the first ready entry of the accumulator queue takes a free accumulator, and its head starts
(R85, R95). An admission that is due comes first (R147, R162). -/
def execExclusiveOpStart (s : State) : Host.Outcome State Fault Refusal :=
  if admissionDue s then .next s
  else match s.home.accQueue, freeAcc s with
    | st :: _, some i => .next (settle (startOp st i s))
    | _, _ => .next s

/-- A releasable WRITE is issued; when its holder is unavailable it becomes a DEGRADED_WRITE in its place, or is answered
LOST when its stripe is stale here (R91, R97). -/
def releaseWriteOf (t : Nat) (p : Place) (s : State) : State :=
  let test := s.home.releaseTest
  if reachable s (holderOf s.n p.stripe p.position) then
    let m : Place := { p with use := .member t }
    issueMember t m (filterPark p.who false (movePlace test (fun _ => m) s))
  else if stale s p.stripe then settleWrite test p .lost (filterPark p.who false s)
  else s.setHome { s.home with pool := changeFirst test (fun x => { x with kind := .degradedWrite }) s.home.pool }

/-- MEMBER_WRITE_RELEASE: with a slot FREE and no ask waiting, the releasable WRITE with the earliest park order is
released (R91). An admission that is due comes first (R147, R162). -/
def execMemberWriteRelease (s : State) : Host.Outcome State Fault Refusal :=
  if admissionDue s then .next s
  else match slotAtOnce s, freeSlot s, s.home.releaseCandidate with
    | true, some t, some p => .next (settle (releaseWriteOf t p s))
    | _, _, _ => .next s

end Sys2Proof.Machine
end

