-- ==== Sys2Proof/Machine/BankPort.lean ====
section
/-! DEFINITION. The bank arbiter and the completion of a claim (R15 to R20). -/

namespace Sys2Proof.Machine

/-- BANK_GRANT: with the bank free, the first claimant in rotation from the pointer with a claim waiting is granted, and
the pointer moves to the claimant after it (R18, R19). -/
def execBankGrant (s : State) : Host.Outcome State Fault Refusal :=
  match s.bank.busy, arbiterPick s.bank with
  | none, some who =>
    match s.bank.due who with
    | [] => .next s
    | c :: rest =>
      .next (s.setBank { (s.bank.setDue who rest) with
        pointer := who.after, busy := some { who := who, claim := c } })
  | _, _ => .next s

/-- The claimant acts on its completed claim (R57, R108, R113, R128, R158). -/
def claimDone (w : ClaimFor) (reads : List BankWord) (s : State) : State :=
  match w with
  | .holder => holderDone reads s
  | .delta st o => deltaApplied st o (reads.headD voidWord) s
  | .parityRead st o => opParityRead st o reads s
  | .parityWrite st => opParityWritten st s
  | .fill => fillAdvance s
  | .unitStore => rebuildAdvance s

/-- BANK_CLAIM_COMPLETION: the claim is carried out whole, and its claimant acts on it (R15, R16). -/
def execBankClaimCompletion (s : State) : Host.Outcome State Fault Refusal :=
  match s.bank.busy with
  | none => .next s
  | some b =>
    if !claimInBank s.straps b.claim then .fault .bankRange
    else
      .next (settle (claimDone b.claim.work (claimReads s.bank.words b.claim) (runClaim b.claim s)))

end Sys2Proof.Machine
end

