-- ==== Sys2Proof/Machine/GroupBus.lean ====
section
/-! DEFINITION. The station's side of the group bus: contention, the acceptance phase as receiver and as sender, the
header step, the idle gap (R27 to R34, R39, R40, R54, R196, R198). -/

namespace Sys2Proof.Machine

/-- The class of an outbound queue: REQ for requests and notices. -/
def isReqClass : OutSel → Bool
  | .reply => false
  | .request | .notice => true

/-- The head of an outbound queue, unless it waits out a refuse backoff (R28). -/
def OutQ.offer (q : OutQ) : Option OutMsg := if q.backoff.isNone then q.q.head? else none

/-- What the station offers at a contention (R28). -/
def ownOffer (s : State) : Option (OutSel × OutMsg) :=
  if !live s then none
  else match s.link.replies.offer with
    | some m => some (.reply, m)
    | none =>
      if s.link.deferred then none
      else if s.link.notices.q.isEmpty then s.link.requests.offer.map fun m => (.request, m)
      else s.link.notices.offer.map fun m => (.notice, m)

/-- BUS_CONTENTION: on the free bus the station with the lowest key wins and sends; winning with a REQ-class message
sets the deferred flag (R27, R28, R196). -/
def execBusContention (others : List (BitVec 4)) (s : State) : Host.Outcome State Fault Refusal :=
  if s.link.bus != .free then .next s
  else
    let lost := if others.isEmpty then s else s.setLink { s.link with bus := .other }
    match ownOffer s with
    | none => .next lost
    | some (sel, m) =>
      let key := keyOf (isReqClass sel) s.own
      if (contend (key :: others)).contains key then
        .next (s.setLink { s.link with
          bus := .own sel m.msg false, deferred := s.link.deferred || isReqClass sel })
      else .next lost

/-- IDLE_GAP: the bus has been idle for 1 µs, so the deferred flag clears (R29). It is not idle while this station
sends or offers. -/
def execIdleGap (s : State) : Host.Outcome State Fault Refusal :=
  if s.link.bus == .free && (ownOffer s).isNone then .next (s.setLink { s.link with deferred := false }) else .next s

/-- REFUSE_BACKOFF_EXPIRY: the refuse backoff of a queue's head ends (R32). -/
def execRefuseBackoffExpiry (sel : OutSel) (s : State) : Host.Outcome State Fault Refusal :=
  .next (s.setLink (s.link.setOut sel { s.link.out sel with backoff := none }))

/-! ### Receiving (R30, R39, R40) -/

/-- The state a view entry takes from a header of its incarnation, or from any header when ABSENT: forward only
(R40). -/
def headerState (old : ViewState) (x : PeerState) : ViewState :=
  match old, x with
  | .absent, x => x.toView
  | .joining, x => x.toView
  | .rebuilding, .active => .active
  | old, _ => old

/-- The view updated from the header of a taken message (R40, R46). -/
def headerView (m : Msg) (s : State) : State :=
  let v := viewAt s m.source
  let st := headerState v.state m.sState
  causeView (st != v.state) (setView m.source { v with state := st, inc := m.sInc } s)

/-- A taken message placed: a request or notice in the inbound request queue, a reply in the reply inbox (R30). -/
def placeMsg (m : Msg) (s : State) : State :=
  if m.kind.isReply then s.setLink { s.link with inbox := s.link.inbox ++ [m] }
  else s.setLink { s.link with inbound := s.link.inbound ++ [m] }

/-- The header step on a taken message (R39, R40): a HELLO passes; a message of a failed incarnation is discarded with a
FAIL to its sender; one of another incarnation is discarded; any other updates the view and is placed. -/
def headerStep (m : Msg) (s : State) : State :=
  let v := viewAt s m.source
  if m.kind == .hello then placeMsg m s
  else if v.state == .failed && v.inc == m.sInc then queueNotice (failNotice (.station m.source) m.source v.inc) s
  else if v.state != .absent && v.inc != m.sInc then s
  else placeMsg m (headerView m s)

/-- The queue a message would be placed in is full (R30). -/
def inboundFull (k : Kind) (s : State) : Bool :=
  if k.isReply then decide (Config.inboxPlaces ≤ s.link.inbox.length)
  else decide (Config.inboundPlaces ≤ s.link.inbound.length)

/-- What the station drives in the acceptance phase of another's message. GACCn and GREFn show it for that phase alone
(R196); afterwards the field is the record of the last such phase (log entry 34). -/
def setAnswer (a : Answer) (s : State) : State := s.setLink { s.link with answer := a }

/-- The acceptance phase of another station's message (R30): nothing when not addressed, INERT or in reset; REFUSE on a
bad check, an undefined kind, a malformed message or a full queue; otherwise ACCEPT, and the message is taken. -/
def receive (bs : List Byte) (s : State) : State :=
  if !live s || !addressedTo s.own bs then setAnswer .none s
  else match decodeFrame s.straps bs with
    | .badCheck | .undefinedKind | .malformed => setAnswer .refuse s
    | .ok m => if inboundFull m.kind s then setAnswer .refuse s else headerStep m (setAnswer .accept s)

/-! ### Sending (R32, R33, R34, R54) -/

/-- The slot of a delivered request becomes SENT, with its response timer started (R68). -/
def slotDelivered (t : Nat) (s : State) : State :=
  let x := slotAt s t
  if x.state == .queued then
    setSlot t { x.stopped with state := .sent, attempts := x.attempts + 1, response := some Config.responseTime } s
  else s

/-- A reply of an exclusive operation is disposed of: the operation ends (R170). -/
def opDisposed (m : OutMsg) (s : State) : State :=
  match m.op with
  | none => s
  | some st => closeOp st s

/-- The head of an outbound queue is delivered and leaves (R32, R34). -/
def delivered (sel : OutSel) (m : OutMsg) (s : State) : State :=
  let s := s.setLink (s.link.setOut sel (s.link.out sel).dropHead)
  if m.msg.kind.isRequest then slotDelivered m.msg.tag s else opDisposed m s

/-- The send of a head counts as unanswered (R33): to ALL it is delivered; to a station it is resent once, and the second
time it leaves and its destination is reported. -/
def unanswered (sel : OutSel) (m : OutMsg) (s : State) : State :=
  match m.msg.dest with
  | .all => delivered sel m s
  | .station j =>
    let q := s.link.out sel
    if Config.unansweredLimit ≤ q.unanswered + 1 then
      reportUnreachable j (opDisposed m (s.setLink (s.link.setOut sel q.dropHead)))
    else s.setLink (s.link.setOut sel { q with unanswered := q.unanswered + 1 })

/-- The head of an outbound queue was refused (R32): its count, its backoff, or at the 32nd refusal an unanswered
send. -/
def refused (sel : OutSel) (m : OutMsg) (s : State) : State :=
  let q := s.link.out sel
  if Config.refusalLimit ≤ q.refusals + 1 then
    unanswered sel m (s.setLink (s.link.setOut sel { q with refusals := 0 }))
  else s.setLink (s.link.setOut sel { q with refusals := q.refusals + 1, backoff := some Config.refuseBackoff })

/-- The join window opens at the end of the first send of the own HELLO (R54). -/
def openWindow (m : Msg) (s : State) : State :=
  if m.kind == .hello && s.mem.ownState == .joining && s.mem.window == .closed then
    s.setMem { s.mem with window := .running Config.joinTime }
  else s

/-- The join decision falls when the window has expired and the HELLO is delivered (R54, R55). -/
def decideIfDue (s : State) : State :=
  if s.mem.window == .expired && !helloPending s then joinDecision s else s

/-- The end of the own message, the lines sampled (R32, R33, R34). -/
def sendEnd (sel : OutSel) (accept refuse : Bool) (s : State) : State :=
  match (s.link.out sel).q with
  | [] => s
  | m :: _ =>
    let s := openWindow m.msg s
    let s := if refuse then refused sel m s else if accept then delivered sel m s else unanswered sel m s
    settle (decideIfDue s)

/-- ACCEPTANCE_PHASE: the end of another station's message, or of the own; or another station's message cut off, after
which there is no acceptance phase (R30, R32, R33, R41). -/
def execAcceptancePhase (e : PhaseEnd) (s : State) : Host.Outcome State Fault Refusal :=
  let free := s.setLink { s.link with bus := .free }
  match e, s.link.bus with
  | .received bs, .other => .next (receive bs free)
  | .cut, .other => .next free
  | .sent a r, .own sel _ detached => .next (if detached then free else sendEnd sel a r free)
  | _, _ => .next s

/-- HELD_REPLY_QUEUED: a free place goes to the held reply whose wait began first, when no earlier waiter needs it
(R35); the reply of an ended work is then disposed of (R96). -/
def execHeldReplyQueued (s : State) : Host.Outcome State Fault Refusal :=
  let rank := s.link.waiters.findIdx (· != .head)
  match s.link.waiters[rank]? with
  | some (.reply m) =>
    if rank < freePlaces s then
      let s := s.setLink { s.link with waiters := s.link.waiters.eraseIdx rank }
      let s := filterDone m.msg s
      if replyDropped s m.msg then .next (settle (opDisposed m s))
      else if m.msg.kind == .rebuildRsp then .next (pushReply m s)
      else .next (settle (opDisposed m (pushReply { msg := m.msg } s)))
    else .next s
  | some .head | none => .next s

end Sys2Proof.Machine
end

