-- ==== Sys2Proof/Machine/HostPort.lean ====
section
/-! DEFINITION. The host's side: accesses presented, the status window, the local request queue (R176 to R193, R194,
R199, R200). -/

namespace Sys2Proof.Machine

/-! ### The status window (R187, R199, R200) -/

/-- The strap readback word: pin levels as sampled, and whether they are invalid. -/
def strapWord (p : StrapPins) : Word :=
  (BitVec.ofBool (!strapsValid p) ++ 0#1 ++ p.ap ++ BitVec.ofBool p.sm ++ p.bs ++ p.us ++ 0#1 ++ p.gs ++ 0#1 ++ p.sn
    : BitVec 17).setWidth 32

/-- Codes of the own state (R199). -/
def OwnState.code : OwnState → Nat
  | .inert => 0 | .joining => 1 | .filling => 2 | .rebuilding => 3 | .active => 4

/-- Codes of a view state (R199). -/
def ViewState.code : ViewState → Nat
  | .absent => 0 | .joining => 1 | .rebuilding => 2 | .active => 3 | .failed => 4

/-- Codes of a fault kind in the first-fault record; 0 is NONE (R199). -/
def PortFault.code : PortFault → Nat
  | .range => 1 | .lost => 2 | .expelled => 3 | .inert => 4

/-- State in bits 2:0, incarnation in bits 7:4, join mode in bit 8, and bit 15 (R199). -/
def stateWord (code : Nat) (inc : BitVec 4) (mode : JoinMode) (present : Bool) : Word :=
  (BitVec.ofBool present ++ 0#6 ++ BitVec.ofBool (mode == .warm) ++ inc ++ 0#1 ++ BitVec.ofNat 3 code
    : BitVec 16).setWidth 32

/-- The view word of station `j`: 0 for numbers N and above and on an INERT station (R187, R200). -/
def viewWord (s : State) (j : Nat) : Word :=
  if s.mem.ownState != .inert && decide (j < s.n) then
    stateWord (viewAt s j).state.code (viewAt s j).inc (viewAt s j).mode true
  else 0

/-- The window word of an index (R187, R199). -/
def windowWord (s : State) (i : Nat) : Word :=
  if i == 0 then strapWord s.straps
  else if i == 1 then stateWord s.mem.ownState.code s.mem.ownInc s.mem.joinMode false
  else if i ≤ 9 then viewWord s (i - 2)
  else if i == 10 then BitVec.ofNat 32 s.sweep.rebuildPtr
  else if i == 11 then BitVec.ofNat 32 s.sweep.auditPtr
  else if i == 12 then BitVec.ofNat 32 s.counters.recovered
  else if i == 13 then BitVec.ofNat 32 s.counters.lost
  else if i == 14 then BitVec.ofNat 32 s.counters.resyncs
  else if i == 15 then BitVec.ofNat 32 s.counters.repairDrops
  else if i == 16 then BitVec.ofNat 32 s.counters.writeFaults
  else if i == 17 then BitVec.ofNat 32 s.counters.busyRefusals
  else if i == 18 then BitVec.ofNat 32 ((s.port.firstFault.map (·.1)).getD 0)
  else if i == 19 then BitVec.ofNat 32 ((s.port.firstFault.map (·.2.code)).getD 0)
  else if i == 20 then causesWord s.causes
  else if i == 21 then causesWord s.enables
  else 0

/-- A write to a window word (R186). -/
def windowWrite (i : Nat) (lanes : Lanes) (data : Word) (s : State) : State :=
  if i == 20 then clearCauses lanes data s
  else if i == 21 then writeEnables lanes data s
  else s

/-! ### Accesses (R177, R178) -/

/-- The entry an access to the shared space becomes (R179). -/
def entryOf (p : StrapPins) (a : Access) : LocalEntry :=
  let x := placeOf p a.addr.toNat
  { isWrite := a.isWrite, addr := wordAddr a.addr.toNat, stripe := x.stripe, position := x.position,
    offset := x.offset, lanes := a.lanes, data := if a.isWrite then a.data else 0 }

/-- A shared access is taken into the local request queue: a write is released, a read waits (R178). -/
def takeAccess (a : Access) (s : State) : State :=
  let s := s.setPort { s.port with entries := s.port.entries ++ [entryOf s.straps a], stalled := false }
  if a.isWrite then releaseWrite s else s

/-- An access answered at once: a read with its data and ERR, a write after its effect (R177). -/
def answerAccess (a : Access) (data : Word) (err : Bool) (effect : State → State) (s : State) : State :=
  if a.isWrite then releaseWrite (effect s) else completeRead data err s

/-- An access presented, sorted by the first row of R177 that applies. The host presents none before the last one is
answered and its handshake ended (R176, R194). -/
def present (a : Access) (s : State) : State :=
  if s.port.access.isSome then s
  else
    let s := s.setPort { s.port with access := some a }
    let addr := a.addr.toNat
    let word := (addr - Config.windowBase) / 4
    if s.inReset then answerAccess a 0 true id s
    else if a.lanes == 0 then answerAccess a 0 false id s
    else match classOf s.straps addr with
      | .window => answerAccess a (maskLanes a.lanes (windowWord s word)) false (windowWrite word a.lanes a.data) s
      | .inert => answerAccess a 0 true (writeFault (wordAddr addr) .inert) s
      | .range => answerAccess a 0 true (writeFault (wordAddr addr) .range) s
      | .shared =>
        if s.port.entries.length < Config.localPlaces then takeAccess a s
        else s.setPort { s.port with stalled := true }

/-- The byte address of a window word. -/
def windowAddr (i : BitVec 6) : BitVec 25 := BitVec.ofNat 25 (Config.windowBase + 4 * i.toNat)

/-- HOST_READ (R177). -/
def execHostRead (addr : BitVec 25) (lanes : Lanes) (s : State) : Host.Outcome State Fault Refusal :=
  .next (present { isWrite := false, addr := addr, lanes := lanes, data := 0 } s)

/-- HOST_WRITE (R177). -/
def execHostWrite (addr : BitVec 25) (lanes : Lanes) (data : Word) (s : State) : Host.Outcome State Fault Refusal :=
  .next (present { isWrite := true, addr := addr, lanes := lanes, data := data } s)

/-- CAUSE_FLAG_WRITE: a host write to window word 20 (R186, R189). -/
def execCauseFlagWrite (lanes : Lanes) (data : Word) (s : State) : Host.Outcome State Fault Refusal :=
  .next (present { isWrite := true, addr := windowAddr 20, lanes := lanes, data := data } s)

/-- ENABLES_WRITE: a host write to window word 21 (R186, R190). -/
def execEnablesWrite (lanes : Lanes) (data : Word) (s : State) : Host.Outcome State Fault Refusal :=
  .next (present { isWrite := true, addr := windowAddr 21, lanes := lanes, data := data } s)

/-- WINDOW_WRITE_OTHER: a host write to another window word (R186). -/
def execWindowWriteOther (index : BitVec 6) (lanes : Lanes) (data : Word) (s : State) :
    Host.Outcome State Fault Refusal :=
  .next (present { isWrite := true, addr := windowAddr index, lanes := lanes, data := data } s)

/-- STALLED_ACCESS_TAKEN: the stalled access enters the queue when it holds fewer than 8 entries (R178, R182). -/
def execStalledAccessTaken (s : State) : Host.Outcome State Fault Refusal :=
  match s.port.access with
  | none => .next s
  | some a =>
    if s.port.stalled && decide (s.port.entries.length < Config.localPlaces) then .next (takeAccess a s) else .next s

/-- LREQN_RELEASE: the host ends the handshake of an answered access, and LACKn is released (R194). -/
def execLreqnRelease (s : State) : Host.Outcome State Fault Refusal :=
  if s.port.ack then .next (s.setPort { s.port with access := none, ack := false }) else .next s

/-! ### ENTRY_START (R180, R181) -/

/-- The place of the oldest WAITING entry with no earlier entry of its word; `seen` are the words of earlier entries. -/
def startable (seen : List Nat) (i : Nat) : List LocalEntry → Option Nat
  | [] => none
  | e :: es => if e.phase == .waiting && !seen.contains e.addr then some i else startable (e.addr :: seen) (i + 1) es

/-- The started entries (R179). -/
def startedCount (s : State) : Nat := s.port.entries.countP (·.started)

/-- ENTRY_START: in ACTIVE or REBUILDING with fewer than 4 entries started, the oldest entry that may start becomes
FIRST and asks for its slot (R180, R181). -/
def execEntryStart (s : State) : Host.Outcome State Fault Refusal :=
  if serving s && decide (startedCount s < Config.startedLimit) then
    match startable [] 0 s.port.entries with
    | none => .next s
    | some i =>
      match s.port.entries[i]? with
      | none => .next s
      | some e =>
        .next (addAsk (firstAsk s e)
          (s.setPort { s.port with entries := setAt s.port.entries i { e with phase := .first } }))
  else .next s

end Sys2Proof.Machine
end

