-- ==== Sys2Proof/Machine/Replies.lean ====
section
/-! DEFINITION. Replies taken by the transaction unit (R38, R70, R72 to R74, R76). -/

namespace Sys2Proof.Machine

/-- A slot takes a reply: in flight, of its tag and seq, to its source, of a kind that answers it (R74). -/
def slotTakes (x : Slot) (m : Msg) : Bool :=
  x.inFlight && x.seq == m.seq && x.dest == m.source && m.kind.answers x.kind

/-- The reply at the head of the inbox, when it is of this kind, and the state with it taken (R38). -/
def inboxOf (k : Kind) (s : State) : Option (Msg × State) :=
  match s.link.inbox with
  | [] => none
  | m :: rest => if m.kind == k then some (m, s.setLink { s.link with inbox := rest }) else none

/-- A reply of a kind is taken: `g` acts on the slot that takes it; a reply no slot takes is discarded (R74). -/
def takeReply (k : Kind) (g : Nat → Msg → State → State) (s : State) : State :=
  match inboxOf k s with
  | none => s
  | some (m, s) => if slotTakes (slotAt s m.tag) m then g m.tag m s else s

/-- A final reply ends the slot REPLIED, and the outcome is handed to its owner (R73). -/
def takeFinal (t : Nat) (m : Msg) (s : State) : State := settle (finishSlot t (.replied m) s)

/-- HOLD: the slot becomes HELD with its held timer started anew; a queued copy is withdrawn (R70). -/
def takeHold (t : Nat) (_ : Msg) (s : State) : State :=
  let x := slotAt s t
  withdrawCopy t (setSlot t
    { x.stopped with
      state := .held, attempts := if x.state == .held then x.attempts else 0, held := some Config.heldTime } s)

/-- BUSY: the BUSY count rises; the slot goes into BACKOFF, unless its copy is queued (R72). The attempt count is 0 after
it in QUEUED too: R65 counts the sends since the last BUSY, and R72 names no count for that state (log entry 32). -/
def takeBusy (t : Nat) (_ : Msg) (s : State) : State :=
  let x := slotAt s t
  let c := min (x.busyCount + 1) Config.busyLimit
  if x.state == .queued then setSlot t { x with busyCount := c, attempts := 0 } s
  else
    setSlot t
      { x.stopped with
        state := .backoff, busyCount := c, backoff := some (Config.busyUnit * c)
        attempts := if x.state == .backoff then x.attempts else 0 } s

/-- NOT_READY ends the slot NOT_READY (R73). -/
def takeNotReady (t : Nat) (_ : Msg) (s : State) : State := settle (finishSlot t .notReady s)

/-- READ_RSP (R101). -/
def execReadRsp (s : State) : Host.Outcome State Fault Refusal := .next (takeReply .readRsp takeFinal s)
/-- WRITE_RSP (R104). -/
def execWriteRsp (s : State) : Host.Outcome State Fault Refusal := .next (takeReply .writeRsp takeFinal s)
/-- DELTA (R92). -/
def execDelta (s : State) : Host.Outcome State Fault Refusal := .next (takeReply .delta takeFinal s)
/-- RECOVER_RSP (R102, R137). -/
def execRecoverRsp (s : State) : Host.Outcome State Fault Refusal := .next (takeReply .recoverRsp takeFinal s)
/-- GATHER_RSP (R95, R128). -/
def execGatherRsp (s : State) : Host.Outcome State Fault Refusal := .next (takeReply .gatherRsp takeFinal s)
/-- STORE_RSP (R97, R106, R128). -/
def execStoreRsp (s : State) : Host.Outcome State Fault Refusal := .next (takeReply .storeRsp takeFinal s)
/-- FOLD_RSP (R149). -/
def execFoldRsp (s : State) : Host.Outcome State Fault Refusal := .next (takeReply .foldRsp takeFinal s)
/-- REBUILD_RSP (R164, R167). -/
def execRebuildRsp (s : State) : Host.Outcome State Fault Refusal := .next (takeReply .rebuildRsp takeFinal s)
/-- HOLD (R70). -/
def execHold (s : State) : Host.Outcome State Fault Refusal := .next (takeReply .hold takeHold s)
/-- BUSY (R72). -/
def execBusy (s : State) : Host.Outcome State Fault Refusal := .next (takeReply .busy takeBusy s)
/-- NOT_READY (R73). -/
def execNotReady (s : State) : Host.Outcome State Fault Refusal := .next (takeReply .notReady takeNotReady s)

end Sys2Proof.Machine
end

