-- ==== Sys2Proof/Machine/Reset.lean ====
section
/-! DEFINITION. POWER_ON_RESET, RESETN_ASSERTED and RESET_RELEASE (R1 to R3, R20, R41, R64, R191, R192, R201). -/

namespace Sys2Proof.Machine

/-- The bus as a station in reset sees it: its own message is cut off and the bus is free (R41). -/
def cutBus : Bus → Bus
  | .own _ _ _ => .free
  | .free => .free
  | .other => .other

/-- POWER_ON_RESET: every block as State.reset; the bank contents stand (R14), the sampled straps stand until the next
reset release (R1). -/
def execPowerOnReset (s : State) : Host.Outcome State Fault Refusal :=
  .next (((({ State.reset with straps := s.straps }).setBank { words := s.bank.words }).setLink
    { bus := cutBus s.link.bus }).setPending s.pending)

/-- The access the host holds, answered at RESETn: a read completes with ERR and data 0, a write is released (R192).
LDO and LERR stand where no read is answered (log entry 20). -/
def resetAccess (p : Port) : Port :=
  let held : Port := { access := p.access, ack := p.access.isSome, ldo := p.ldo, lerr := p.lerr }
  match p.access with
  | none => held
  | some a => if p.ack || a.isWrite then held else { held with ldo := 0, lerr := true }

/-- The bank's words after RESETn cut the claim in progress (R20). -/
def cutClaim (b : Bank) (accesses : Nat) : List (Nat × BankWord) :=
  match b.busy with
  | none => b.words
  | some c => bankSetAll b.words (cutWrites b.words c.claim accesses)

/-- RESETN_ASSERTED: RESET_LOSS when the port held work (R191), the claim in progress cut (R20), the host released
(R192), the incarnation kept (R44), every other block as State.reset. -/
def execResetnAsserted (accesses : Nat) (s : State) : Host.Outcome State Fault Refusal :=
  let loss := s.causes.resetLoss || !s.port.entries.isEmpty || s.port.stalled
  .next ((((((({ State.reset with straps := s.straps }).setMem { ownInc := s.mem.ownInc }).setBank
    { words := cutClaim s.bank accesses }).setLink { bus := cutBus s.link.bus }).setPort (resetAccess s.port)).setCauses
    { resetLoss := loss }).setPending s.pending)

/-- RESET_RELEASE: the straps are sampled, the audit pointer names the own station (R143), and the station enters INERT
or starts joining (R1, R2, R53). -/
def execResetRelease (pins : StrapPins) (s : State) : Host.Outcome State Fault Refusal :=
  if !s.inReset then .next s
  else
    let s := { s with straps := pins, inReset := false }
    let s := s.setSweep { s.sweep with auditPtr := s.own }
    if strapsValid pins then .next (startJoining (smDecode pins.sm) s)
    else .next (s.setMem { s.mem with ownState := .inert })

end Sys2Proof.Machine
end

