-- ==== Sys2Proof/Machine/Slots.lean ====
section
/-! DEFINITION. The transaction unit's commands: SLOT_GRANT and the three timers (R66 to R72, R75). -/

namespace Sys2Proof.Machine

/-- After a grant, the exclusive operation that owned the ask makes its next one (R66, R128). -/
def afterGrant (o : Owner) (s : State) : State :=
  match o with
  | .op st => askNext st s
  | .port _ | .member _ | .sweep | .repair => s

/-- SLOT_GRANT: the oldest ask is granted the FREE slot with the lowest tag; an outcome at once is handed to its owner
(R66, R67). -/
def execSlotGrant (s : State) : Host.Outcome State Fault Refusal :=
  match s.tu.asks, freeSlot s with
  | a :: rest, some t =>
    let g := grantSlot a t (s.setTu { s.tu with asks := rest })
    let s := match g.2 with
      | none => g.1
      | some o => handOutcome t { owner := some a.owner, kind := a.kind, dest := a.dest, f := a.f } o g.1
    .next (settle (afterGrant a.owner s))
  | _, _ => .next s

/-- RESPONSE_TIMER_EXPIRY: a first delivery is followed by a resend; after the second the destination is reported
unreachable (R69). -/
def execResponseTimerExpiry (tag : BitVec 3) (s : State) : Host.Outcome State Fault Refusal :=
  let x := slotAt s tag.toNat
  if x.state == .sent && x.response.isSome then
    if Config.attemptLimit ≤ x.attempts then
      .next (reportUnreachable x.dest (setSlot tag.toNat { x with response := none } s))
    else .next (queueCopy tag.toNat s)
  else .next s

/-- HELD_TIMER_EXPIRY: the request is resent (R71). -/
def execHeldTimerExpiry (tag : BitVec 3) (s : State) : Host.Outcome State Fault Refusal :=
  let x := slotAt s tag.toNat
  if x.state == .held && x.held.isSome then .next (queueCopy tag.toNat s) else .next s

/-- BACKOFF_TIMER_EXPIRY: the request is resent, or handed to the own engine again (R72, R75). -/
def execBackoffTimerExpiry (tag : BitVec 3) (s : State) : Host.Outcome State Fault Refusal :=
  let x := slotAt s tag.toNat
  if x.state == .backoff && x.backoff.isSome then
    if x.dest == s.own then .next (handOff tag.toNat s) else .next (queueCopy tag.toNat s)
  else .next s

end Sys2Proof.Machine
end

