-- ==== Sys2Proof/Machine/SweepUnit.lean ====
section
/-! DEFINITION. The sweep unit's commands (R144 to R147, R162, R165). -/

namespace Sys2Proof.Machine

/-- AUDIT_PERIOD_EXPIRY: the running timer restarts with its period; an attempt is made when the phase is IDLE (R144,
R145). -/
def execAuditPeriodExpiry (s : State) : Host.Outcome State Fault Refusal :=
  if s.sweep.auditTimer.isSome && s.sweep.auditPhase == .idle then .next (settle (auditAttempt s)) else .next s

/-- URGENT_AUDIT_ADMISSION: a waiting urgent audit is admitted when the room it needs exists (R147). -/
def execUrgentAuditAdmission (s : State) : Host.Outcome State Fault Refusal :=
  if urgentDue s then .next (settle (admitAudit true s)) else .next s

/-- OWN_RECOMPUTE_ADMISSION: the own RECOMPUTE waiting for room is admitted when room exists (R162). -/
def execOwnRecomputeAdmission (s : State) : Host.Outcome State Fault Refusal :=
  if recomputeDue s then .next (settle (offerRecompute s.sweep.rebuildPtr s)) else .next s

/-- REBUILD_PAUSE_EXPIRY: a new slot is asked for the same stripe (R165). -/
def execRebuildPauseExpiry (s : State) : Host.Outcome State Fault Refusal :=
  if s.sweep.rebuildStep == .paused && s.sweep.pause.isSome then .next (askRebuild s.sweep.rebuildPtr s) else .next s

end Sys2Proof.Machine
end

