-- ==== Sys2Proof/Machine/Dispatch.lean ====
section
/-! DEFINITION. One arm per command, in the order of spec/opcode_table.json, each a call of its meaning. -/

namespace Sys2Proof.Machine

/-- What a command does to everything but the queue of waiting commands. -/
def exec (i : Instr) (s : State) : Host.Outcome State Fault Refusal :=
  match i with
  | .powerOnReset => Sys2Proof.Machine.execPowerOnReset s
  | .resetnAsserted accesses => Sys2Proof.Machine.execResetnAsserted accesses s
  | .resetRelease pins => Sys2Proof.Machine.execResetRelease pins s
  | .hostRead addr lanes => Sys2Proof.Machine.execHostRead addr lanes s
  | .hostWrite addr lanes data => Sys2Proof.Machine.execHostWrite addr lanes data s
  | .causeFlagWrite lanes data => Sys2Proof.Machine.execCauseFlagWrite lanes data s
  | .enablesWrite lanes data => Sys2Proof.Machine.execEnablesWrite lanes data s
  | .windowWriteOther index lanes data => Sys2Proof.Machine.execWindowWriteOther index lanes data s
  | .stalledAccessTaken => Sys2Proof.Machine.execStalledAccessTaken s
  | .entryStart => Sys2Proof.Machine.execEntryStart s
  | .busContention others => Sys2Proof.Machine.execBusContention others s
  | .acceptancePhase e => Sys2Proof.Machine.execAcceptancePhase e s
  | .refuseBackoffExpiry q => Sys2Proof.Machine.execRefuseBackoffExpiry q s
  | .idleGap => Sys2Proof.Machine.execIdleGap s
  | .slotGrant => Sys2Proof.Machine.execSlotGrant s
  | .responseTimerExpiry tag => Sys2Proof.Machine.execResponseTimerExpiry tag s
  | .heldTimerExpiry tag => Sys2Proof.Machine.execHeldTimerExpiry tag s
  | .backoffTimerExpiry tag => Sys2Proof.Machine.execBackoffTimerExpiry tag s
  | .hello => Sys2Proof.Machine.execHello s
  | .helloRsp => Sys2Proof.Machine.execHelloRsp s
  | .state => Sys2Proof.Machine.execState s
  | .fail => Sys2Proof.Machine.execFail s
  | .joinWindowExpiry => Sys2Proof.Machine.execJoinWindowExpiry s
  | .joiningNotReady => Sys2Proof.Machine.execJoiningNotReady s
  | .filterRepeat => Sys2Proof.Machine.execFilterRepeat s
  | .read via => Sys2Proof.Machine.execRead via s
  | .update via => Sys2Proof.Machine.execUpdate via s
  | .gather via => Sys2Proof.Machine.execGather via s
  | .store via => Sys2Proof.Machine.execStore via s
  | .directWrite via => Sys2Proof.Machine.execDirectWrite via s
  | .fold via => Sys2Proof.Machine.execFold via s
  | .write via => Sys2Proof.Machine.execWrite via s
  | .recover via => Sys2Proof.Machine.execRecover via s
  | .rebuild via => Sys2Proof.Machine.execRebuild via s
  | .readRsp => Sys2Proof.Machine.execReadRsp s
  | .writeRsp => Sys2Proof.Machine.execWriteRsp s
  | .delta => Sys2Proof.Machine.execDelta s
  | .recoverRsp => Sys2Proof.Machine.execRecoverRsp s
  | .gatherRsp => Sys2Proof.Machine.execGatherRsp s
  | .storeRsp => Sys2Proof.Machine.execStoreRsp s
  | .foldRsp => Sys2Proof.Machine.execFoldRsp s
  | .rebuildRsp => Sys2Proof.Machine.execRebuildRsp s
  | .hold => Sys2Proof.Machine.execHold s
  | .busy => Sys2Proof.Machine.execBusy s
  | .notReady => Sys2Proof.Machine.execNotReady s
  | .bankGrant => Sys2Proof.Machine.execBankGrant s
  | .bankClaimCompletion => Sys2Proof.Machine.execBankClaimCompletion s
  | .exclusiveOpStart => Sys2Proof.Machine.execExclusiveOpStart s
  | .memberWriteRelease => Sys2Proof.Machine.execMemberWriteRelease s
  | .heldReplyQueued => Sys2Proof.Machine.execHeldReplyQueued s
  | .auditPeriodExpiry => Sys2Proof.Machine.execAuditPeriodExpiry s
  | .urgentAuditAdmission => Sys2Proof.Machine.execUrgentAuditAdmission s
  | .ownRecomputeAdmission => Sys2Proof.Machine.execOwnRecomputeAdmission s
  | .rebuildPauseExpiry => Sys2Proof.Machine.execRebuildPauseExpiry s
  | .lreqnRelease => Sys2Proof.Machine.execLreqnRelease s

end Sys2Proof.Machine
end

