-- ==== Sys2Proof/WellFormed.lean ====
section
/-! DEFINITION. When a command's operands are what its row of the table says. A command that is not well formed
is still given the effect of the event its operands describe; nothing rests on well-formedness but statements. -/

namespace Sys2Proof

/-- The index of a byte address in the status window, if it lies there (R8). -/
def windowIndex (addr : Nat) : Option Nat :=
  if Config.windowBase ≤ addr ∧ addr < 0x2000000 then some ((addr - Config.windowBase) / 4) else none

/-- No two stations present equal keys (R27). -/
def keysDistinct : List (BitVec 4) → Bool
  | [] => true
  | k :: ks => !ks.contains k && keysDistinct ks

/-- Operands as the rows say: HOST_WRITE lies outside the window, WINDOW_WRITE_OTHER names neither word 20 nor 21,
and the keys of a contention differ from one another. -/
def WellFormed : Instr → Bool
  | .hostWrite addr _ _ => (windowIndex addr.toNat).isNone
  | .windowWriteOther index _ _ => index != 20 && index != 21
  | .busContention others => keysDistinct others
  | .powerOnReset | .resetnAsserted _ | .resetRelease _ | .hostRead _ _ | .causeFlagWrite _ _ | .enablesWrite _ _
  | .stalledAccessTaken | .entryStart | .acceptancePhase _ | .refuseBackoffExpiry _ | .idleGap | .slotGrant
  | .responseTimerExpiry _ | .heldTimerExpiry _ | .backoffTimerExpiry _ | .hello | .helloRsp | .state | .fail
  | .joinWindowExpiry | .joiningNotReady | .filterRepeat | .read _ | .update _ | .gather _ | .store _
  | .directWrite _ | .fold _ | .write _ | .recover _ | .rebuild _ | .readRsp | .writeRsp | .delta | .recoverRsp
  | .gatherRsp | .storeRsp | .foldRsp | .rebuildRsp | .hold | .busy | .notReady | .bankGrant | .bankClaimCompletion
  | .exclusiveOpStart | .memberWriteRelease | .heldReplyQueued | .auditPeriodExpiry | .urgentAuditAdmission
  | .ownRecomputeAdmission | .rebuildPauseExpiry | .lreqnRelease => true

end Sys2Proof
end

