-- ==== Sys2Proof/Safety.lean ====
section
/-! DEFINITION. What a sound state of the station is: the capacities the spec gives its queues and tables, the keys it
says are held once, the counters' range, the bank's canonical form. Claims about steps are stated in these terms. -/

namespace Sys2Proof.Machine

/-- No queue or table holds more than the spec gives it places (R37, R38, R82, R83, R135, R178), and at most four local
entries are started (R180). -/
structure State.Bounded (s : State) : Prop where
  inbound : s.link.inbound.length ≤ 16
  inbox : s.link.inbox.length ≤ 16
  table : s.home.table.length ≤ 16
  pool : s.home.pool.length ≤ 32
  repair : s.holder.repair.length ≤ 8
  entries : s.port.entries.length ≤ 8
  started : s.port.entries.countP (·.started) ≤ 4

/-- The places of the outbound reply queue that are held or reserved: a queued reply, a withdrawn reply still in
transmission (R34), the place reserved by the holder at work for a peer (R35, R37). -/
def placesInUse (s : State) : Nat :=
  s.link.replies.q.length + (s.link.bus.detachedFrom .reply).toNat
    + (match s.holder.work with
       | some { who := .peer _ _ _, .. } => 1
       | _ => 0)

/-- What the spec holds at most once: an entry of the duplicate filter for a source and a tag (R77), an entry of the
stripe table for a stripe (R82), a word in the repair queue (R135), and a queued notice for each matter that a new notice
would replace (R35). -/
structure State.Keyed (s : State) : Prop where
  filter : s.filter.Pairwise fun a b => ¬(a.src = b.src ∧ a.tag = b.tag)
  table : s.home.table.Pairwise fun a b => a.stripe ≠ b.stripe
  repair : s.holder.repair.Nodup
  notices : s.link.notices.q.Pairwise fun a b => noticeReplaces a.msg b.msg = false

/-- Every counter is within 0..65535 (R188). -/
structure State.CountersFit (s : State) : Prop where
  recovered : s.counters.recovered ≤ 65535
  lost : s.counters.lost ≤ 65535
  resyncs : s.counters.resyncs ≤ 65535
  repairDrops : s.counters.repairDrops ≤ 65535
  writeFaults : s.counters.writeFaults ≤ 65535
  busyRefusals : s.counters.busyRefusals ≤ 65535

/-- The fixed sizes: eight view entries (numbers N and above unused), eight slots with a seq bit for each station, two
accumulators (R45, R65, R85). -/
structure State.Sized (s : State) : Prop where
  views : s.mem.views.length = 8
  slots : s.tu.slots.length = 8
  seqs : ∀ x ∈ s.tu.slots, x.seqs.length = 8
  accs : s.home.accs.length = 2

/-- A station that holds its cooperative state soundly. -/
structure State.Sound (s : State) : Prop where
  bounded : s.Bounded
  keyed : s.Keyed
  counters : s.CountersFit
  sized : s.Sized
  bank : Memory.wf s.bank.words = true

/-- A message as a station of the group sends it to one strapped `p`: every field its kind does not carry at 0 (R198), the
rest in the ranges of R21 and R31, with the payload R22 and R23 give. -/
structure Msg.Sendable (p : StrapPins) (m : Msg) : Prop where
  tag : m.tag < 8
  dest : ∀ j, m.dest = .station j → j < 15
  filled : zeroFill m = m
  payload : m.f.payload.length = payloadCount (unitWords p) m.kind m.status m.f.count
  voids : m.kind.hasVoids = true → m.f.voids.length = m.f.payload.length
  bad : m.bad.length ≤ 4
  formed : malformed p m = false

/-- The number of ones among the nine bits of lane `i`: its eight data bits and its parity bit (R10). -/
def onesInLane (b : BankWord) (i : Nat) : Nat :=
  (List.range 8).countP (fun n => b.data.getLsbD (8 * i + n)) + (b.par.getLsbD i).toNat

/-- Nothing is left at this station of what station `j` had going here, and nothing it had going at `j` (R47). -/
structure WorkEnded (j : Nat) (t : State) : Prop where
  slots : ∀ x ∈ t.tu.slots, x.inFlight = true → x.dest ≠ j
  filter : ∀ e ∈ t.filter, e.src ≠ j
  inbound : ∀ m ∈ t.link.inbound, m.kind.isRequest = true → m.source ≠ j
  places : ∀ p ∈ t.home.pool, p.who.isPeer j = false
  ops : ∀ e ∈ t.home.table, ∀ op, e.op = some op → op.who.isPeer j = false
  replies : ∀ m ∈ t.link.replies.q, m.msg.dest = .station j → m.msg.kind = .helloRsp
  held : ∀ w ∈ t.link.waiters, w.repliesTo j = false

/-- The reply `m` heads the inbox and is taken by the slot of its tag, whose owner is `o` (R38, R74). -/
structure Takes (s : State) (m : Msg) (rest : List Msg) (o : Owner) : Prop where
  inbox : s.link.inbox = m :: rest
  slot : slotTakes (slotAt s m.tag) m = true
  owner : (slotAt s m.tag).owner = some o
  tag : m.tag < s.tu.slots.length

/-- A reply as this station queues it to the request of station `src` with that tag and seq, its header filled (R21,
R23). -/
def replyTo (s : State) (src tag : Nat) (seq : Bool) (m : Msg) : OutMsg :=
  { msg := { m with source := s.own, dest := .station src, sState := shownState s.mem.ownState, sInc := s.mem.ownInc,
                    tag := tag, seq := seq } }

/-- A reply to station `src` is queued at once: the view admits it, nobody waits for a place, and one is free (R35,
R36). -/
structure CanReply (s : State) (src : Nat) : Prop where
  admitted : (viewAt s src).state.available = true
  noWaiter : s.link.waiters = []
  room : 0 < freePlaces s

/-- The filter after the reply of kind `k` to that request: its entry, while IN_PROGRESS, is DONE with `c` cached
(R77, R79). -/
def doneWith (s : State) (src tag : Nat) (seq : Bool) (c : Option Cached) : List FilterEntry :=
  s.filter.map fun e =>
    if e.src = src ∧ e.tag = tag ∧ e.seq = seq ∧ (e.state = .inProgress true ∨ e.state = .inProgress false) then
      { e with state := .done c }
    else e

/-- The filter after that request was parked: its entry, while IN_PROGRESS, is marked so (R79). -/
def parkedWith (s : State) (src tag : Nat) (seq : Bool) : List FilterEntry :=
  s.filter.map fun e =>
    if e.src = src ∧ e.tag = tag ∧ e.seq = seq ∧ (e.state = .inProgress true ∨ e.state = .inProgress false) then
      { e with state := .inProgress true }
    else e

/-- The slot with no timer running, in another state: HELD and SENT of a self-addressed request run none (R75). -/
def Slot.turned (x : Slot) (st : SlotState) : Slot := { x with state := st, response := none, held := none, backoff := none }

/-- The port when the started entry of word `addr` has left its queue (R182). -/
def entryLeft (s : State) (addr : Nat) : Port :=
  { s.port with entries := s.port.entries.eraseP (fun x => x.addr == addr && x.started) }

/-- The slot of tag `t` is FREE with no owner and no timer (R73). -/
def SlotFreed (s : State) (t : Nat) : Prop :=
  (slotAt s t).state = .free ∧ (slotAt s t).owner = none ∧ (slotAt s t).response = none ∧ (slotAt s t).held = none ∧
    (slotAt s t).backoff = none

/-- HOLD has gone to the requester of work that now waits: to a peer over the link, its filter entry parked; to an own slot
straight, which is HELD with no timer (R75, R79, R92). -/
def HoldTold (s t : State) : Requester → Prop
  | .peer src tag seq => CanReply s src → t.filter = parkedWith s src tag seq ∧
      t.link.replies.q = s.link.replies.q ++ [replyTo s src tag seq { kind := .hold }] ∧ t.link.waiters = s.link.waiters
  | .own n => ∀ addr, n < s.tu.slots.length → (slotAt s n).inFlight = true → (slotAt s n).owner = some (.port addr) →
      slotAt t n = { (slotAt s n).turned .held with attempts := 0 } ∧ t.filter = s.filter ∧ t.link.replies = s.link.replies
  | .internalAudit | .internalRebuild | .internalList | .nobody => True

/-- The WRITE_RSP of a write, OK or LOST, has gone to its requester: to a peer over the link, cached; to the own slot of a
started local write straight, which ends, the write finishing without fault or with write fault LOST; to nobody when it
has lost its requester (R75, R79, R98, R182, R184). `c` is the counters but for that write fault. -/
def WriteTold (s t : State) (c : Counters) (ok : Bool) : Requester → Prop
  | .peer src tag seq =>
      let status : Status := if ok then .ok else .lost
      t.port = s.port ∧ t.causes = s.causes ∧ t.counters = c ∧
      (CanReply s src →
        t.filter = doneWith s src tag seq (some { kind := .writeRsp, status := status, word := none }) ∧
        t.link.replies.q = s.link.replies.q ++ [replyTo s src tag seq { kind := .writeRsp, status := status }])
  | .own n => ∀ addr e, n < s.tu.slots.length → (slotAt s n).inFlight = true →
      (slotAt s n).owner = some (.port addr) → startedEntry s addr = some e → e.isWrite = true →
      SlotFreed t n ∧ t.filter = s.filter ∧ t.link.replies = s.link.replies ∧
      if ok then
        t.port = entryLeft s e.addr ∧ t.causes = s.causes ∧ t.counters = c
      else
        t.port = { entryLeft s e.addr with firstFault := s.port.firstFault <|> some (e.addr, .lost) } ∧
        t.causes = { s.causes with fault := true } ∧
        t.counters = { c with writeFaults := min (c.writeFaults + 1) 65535 }
  | .internalAudit | .internalRebuild | .internalList | .nobody =>
      t.filter = s.filter ∧ t.link.replies = s.link.replies ∧ t.port = s.port ∧ t.causes = s.causes ∧ t.counters = c

/-- The parts of the station that only resets, joins and the host's own commands change. -/
def sameRecord (s t : State) : Prop :=
  t.straps = s.straps ∧ t.inReset = s.inReset ∧ t.enables = s.enables ∧ t.pending = s.pending ∧
    t.bank.words = s.bank.words

/-- The reset commands. -/
def isReset : Instr → Bool
  | .powerOnReset | .resetnAsserted _ | .resetRelease _ => true
  | _ => false

end Sys2Proof.Machine
end

