-- ==== Sys2Proof/Certificates/Slice0/Obligations.lean ====
section
/-! DEFINITION. The statements for the provers. Each docstring names the rule of the spec it comes from; a statement that
rests on a choice of the model says so and names the log entry. -/

open Sys2Proof Sys2Proof.Machine

/-! ### The step, and what holds of every command -/

/-- A step runs the command at the front of the queue on the station with the rest of the queue; on an empty queue the
station idles (the model's choice, log entry 2). -/
def Obligations.StepRunsTheFrontCommand : Prop :=
  (∀ (c : Instr) (rest : List Instr) (s : State), s.pending = c :: rest → step s = exec c (s.setPending rest)) ∧
  ∀ s : State, s.pending = [] → step s = .next s

/-- What only certain commands change: no command changes the queue of waiting commands (the model's, log entry 2); the
bank's words change only at the completion of a claim, at RESETn, which cuts one, and at the FAIL that expels the
station, in which one completes (R14, R15, R20, R62; that it completes in that step is log entry 36); the sampled straps
only at reset release of a station in reset (R1); the enables only at resets and at the host's write to the
enables word (R190). -/
def Obligations.RecordsChangeOnlyByTheirCommands : Prop :=
  (∀ (c : Instr) (s t : State), exec c s = .next t → t.pending = s.pending) ∧
  (∀ (c : Instr) (s t : State), exec c s = .next t → c ≠ .bankClaimCompletion → (∀ n, c ≠ .resetnAsserted n) →
     (c = .fail → t.mem.ownInc = s.mem.ownInc) → t.bank.words = s.bank.words) ∧
  (∀ (c : Instr) (s t : State), exec c s = .next t → t.straps ≠ s.straps →
     s.inReset = true ∧ c = .resetRelease t.straps) ∧
  (∀ (c : Instr) (s t : State), WellFormed c = true → exec c s = .next t → t.enables ≠ s.enables →
     c = .powerOnReset ∨ (∃ n, c = .resetnAsserted n) ∨ ∃ l d, c = .enablesWrite l d)

/-- Every command but BANK_CLAIM_COMPLETION completes in every state: none is refused and none faults; and
BANK_CLAIM_COMPLETION faults only on a claim outside the bank (R9, R15; log entry 27). -/
def Obligations.EveryCommandCompletes : Prop :=
  ∀ (c : Instr) (s : State),
    (∃ t, exec c s = .next t) ∨
      (c = .bankClaimCompletion ∧ exec c s = .fault .bankRange ∧
        ∃ b, s.bank.busy = some b ∧ claimInBank s.straps b.claim = false)

/-- Every bank word the station writes is good in all four lanes or void in all four lanes, through every claim and every
reset (R11, R20). -/
def Obligations.WordsAreWrittenGoodOrVoid : Prop :=
  ∀ (c : Instr) (s t : State) (i : Nat), Memory.wf s.bank.words = true → exec c s = .next t →
    bankGet t.bank.words i = bankGet s.bank.words i ∨ isGood (bankGet t.bank.words i) = true ∨
      bankGet t.bank.words i = voidWord

/-- Every step keeps a sound state sound: queues and tables within their places, keys held once, counters within 0..65535,
the fixed sizes, the bank's canonical form (R35, R37, R38, R65, R77, R82, R83, R135, R178, R180, R188). -/
def Obligations.StepsKeepStationSound : Prop :=
  ∀ s t : State, s.Sound → step s = .next t → t.Sound

/-- Every step keeps the outbound reply queue within its eight places, the reserved place and a withdrawn reply in
transmission counted (R34, R35, R37). -/
def Obligations.StepsKeepReplyPlaces : Prop :=
  ∀ s t : State, placesInUse s ≤ 8 → step s = .next t → placesInUse t ≤ 8

/-- The station after power-on reset is sound and uses no reply-queue place. -/
def Obligations.ResetIsSound : Prop := State.reset.Sound ∧ placesInUse State.reset = 0

/-- A counter never falls but at a reset, and never passes 65535 (R188). -/
def Obligations.CountersNeverFall : Prop :=
  ∀ (c : Instr) (s t : State), isReset c = false → s.CountersFit → exec c s = .next t →
    t.CountersFit ∧ s.counters.recovered ≤ t.counters.recovered ∧ s.counters.lost ≤ t.counters.lost ∧
    s.counters.resyncs ≤ t.counters.resyncs ∧ s.counters.repairDrops ≤ t.counters.repairDrops ∧
    s.counters.writeFaults ≤ t.counters.writeFaults ∧ s.counters.busyRefusals ≤ t.counters.busyRefusals

/-- The own incarnation goes to 0 at power-on reset, and otherwise only up by one modulo 16, at reset release and at the
FAIL that expels the station (R44, R53, R61). -/
def Obligations.IncarnationMovesOnlyAtJoins : Prop :=
  ∀ (c : Instr) (s t : State), exec c s = .next t → t.mem.ownInc ≠ s.mem.ownInc →
    (c = .powerOnReset ∧ t.mem.ownInc = 0) ∨
    (t.mem.ownInc = s.mem.ownInc + 1 ∧ (c = .fail ∨ ∃ p, c = .resetRelease p))

/-- A FAILED entry of another station is lifted by a HELLO from that station and by no other message; expulsion and the
resets clear the view (R48, R53, R64). -/
def Obligations.OnlyHelloLiftsFailure : Prop :=
  ∀ (c : Instr) (s t : State) (j : Nat), exec c s = .next t → s.mem.views.length = 8 → j < 8 → j ≠ s.own →
    (viewAt s j).state = .failed → (viewAt t j).state ≠ .failed →
    isReset c = true ∨
    (c = .fail ∧ t.mem.ownState = .joining ∧ t.mem.ownInc = s.mem.ownInc + 1) ∨
    (c = .hello ∧ ∃ m rest, s.link.inbound = m :: rest ∧ m.kind = .hello ∧ m.source = j)

/-! ### Messages, contention, layout -/

/-- Every message a station may send is read from its frame as it was sent (R21 to R26, R196 to R198). -/
def Obligations.FramesReadBack : Prop :=
  ∀ (p : StrapPins) (m : Msg), m.Sendable p → decodeFrame p (encodeFrame m) = .ok m

/-- The four key periods leave the lowest key alone (R27, R196). The station offers the head of its reply queue; else,
when it is not deferred, the head of its notices or, with no notice, of its requests; a head in its refuse backoff is
not offered (R28). At BUS_CONTENTION on the free bus it sends its offer when its key, class bit first, is below every
other, its deferred flag then set by a request or notice; otherwise another station has the bus (R27, R28, R29). That
the others' keys come with the command, and that the station sees the bus as free, its own or another's, is the
model's form (log entry 9). -/
def Obligations.ContentionGoesToLowestKey : Prop :=
  (∀ ks : List (BitVec 4), ks ≠ [] → keysDistinct ks = true →
     ∃ k ∈ ks, contend ks = [k] ∧ ∀ j ∈ ks, k.toNat ≤ j.toNat) ∧
  (∀ s : State,
     (live s = false → ownOffer s = none) ∧
     (live s = true →
       (∀ m rest, s.link.replies.q = m :: rest → s.link.replies.backoff = none → ownOffer s = some (.reply, m)) ∧
       (s.link.replies.q = [] ∨ s.link.replies.backoff ≠ none →
         (s.link.deferred = true → ownOffer s = none) ∧
         (s.link.deferred = false →
           (∀ m rest, s.link.notices.q = m :: rest →
             ownOffer s = if s.link.notices.backoff = none then some (.notice, m) else none) ∧
           (s.link.notices.q = [] →
             (s.link.requests.q = [] → ownOffer s = none) ∧
             ∀ m rest, s.link.requests.q = m :: rest →
               ownOffer s = if s.link.requests.backoff = none then some (.request, m) else none))))) ∧
  (∀ (others : List (BitVec 4)) (s : State), s.link.bus = .free →
     (∀ sel m, ownOffer s = some (sel, m) →
       let key : Nat := (if sel = .reply then 0 else 8) + s.own
       ((∀ k ∈ others, key < k.toNat) → exec (.busContention others) s = .next (s.setLink { s.link with
           bus := .own sel m.msg false, deferred := s.link.deferred || decide (sel ≠ .reply) })) ∧
       ((∃ k ∈ others, k.toNat < key) →
         exec (.busContention others) s = .next (s.setLink { s.link with bus := .other }))) ∧
     (ownOffer s = none → exec (.busContention others) s =
       .next (if others = [] then s else s.setLink { s.link with bus := .other })))

/-- R6: the role of station j in stripe s is r = (j − s − 1) mod N; r = N − 1 is the home, r < N − 1 the holder of
position r; the parity unit moves one station up for each stripe, and the placement repeats every N stripes. -/
def Obligations.RolesFollowLayout : Prop :=
  ∀ n j st : Nat, j < n →
    ((roleOf n j st : Nat) : Int) = ((j : Int) - st - 1) % n ∧
    (roleOf n j st = n - 1 ↔ j = homeOf n st) ∧
    (∀ k, k < n - 1 → (roleOf n j st = k ↔ j = holderOf n st k) ∧ holderOf n st k ≠ homeOf n st) ∧
    homeOf n (st + 1) = (homeOf n st + 1) % n ∧
    roleOf n j (st + n) = roleOf n j st

/-- A shared byte address has one placement, in range, and the placement gives back the word's address; every placement in
range is that of its address (R5, R7, R9). -/
def Obligations.PlacementIsOneToOne : Prop :=
  ∀ p : StrapPins, strapsValid p = true →
    (∀ a, a < dataUnits p * bankBytes p →
      (placeOf p a).stripe < stripeCount p ∧ (placeOf p a).position < dataUnits p ∧ (placeOf p a).offset < unitWords p ∧
      sharedAddr p (placeOf p a) = wordAddr a) ∧
    ∀ x : Placement, x.stripe < stripeCount p → x.position < dataUnits p → x.offset < unitWords p →
      sharedAddr p x < dataUnits p * bankBytes p ∧ placeOf p (sharedAddr p x) = x ∧
      bankIndex p x.stripe x.offset < stripeCount p * unitWords p

/-- R8: the classes of the local port's addresses, and the index of a window word; the largest shared space ends below the
window. -/
def Obligations.AddressesHaveOneClass : Prop :=
  ∀ (p : StrapPins) (a : Nat), a < 0x2000000 →
    (classOf p a = .window ↔ 0x1FFFF00 ≤ a) ∧
    (classOf p a = .shared ↔ strapsValid p = true ∧ a < dataUnits p * bankBytes p) ∧
    (classOf p a = .range ↔ strapsValid p = true ∧ dataUnits p * bankBytes p ≤ a ∧ a < 0x1FFFF00) ∧
    (classOf p a = .inert ↔ strapsValid p = false ∧ a < 0x1FFFF00) ∧
    (∀ i, windowIndex a = some i ↔ 0x1FFFF00 ≤ a ∧ i = (a - 0x1FFFF00) / 4) ∧
    (0x1FFFF00 ≤ a → (a - 0x1FFFF00) / 4 ≤ 63) ∧
    (strapsValid p = true → dataUnits p * bankBytes p ≤ 0x1C00000)

/-! ### Words, parity, folds -/

/-- A lane is good when its nine bits hold an odd number of ones, a word is good in lanes M when every lane of M is, and
good when all four are (R10); a good write makes every lane good, and a void word is bad in every lane (R11, R12). A
merge takes the new data in the lanes of its set and the old data in the others (R11), a completed read has 0 in the
lanes outside its set (R103), and the three merge claims write by the word as read (R110, R113, R114, R126). -/
def Obligations.LanesAreJudgedAndMerged : Prop :=
  ((∀ (b : BankWord) (i : Nat), i < 4 → (laneGood b i = true ↔ onesInLane b i % 2 = 1)) ∧
   (∀ (b : BankWord) (m : Lanes), goodIn m b = true ↔ ∀ i, i < 4 → m.getLsbD i = true → laneGood b i = true) ∧
   (∀ b : BankWord, isGood b = true ↔ ∀ i, i < 4 → laneGood b i = true) ∧
   (∀ w : Word, (goodWord w).data = w ∧ isGood (goodWord w) = true) ∧
   ∀ i, i < 4 → laneGood voidWord i = false) ∧
  ((∀ (l : Lanes) (new old : Word) (i : Nat), i < 4 →
      laneByte (mergeLanes l new old) i = (if l.getLsbD i then laneByte new i else laneByte old i) ∧
      laneByte (maskLanes l new) i = if l.getLsbD i then laneByte new i else 0) ∧
   (∀ (l : Lanes) (v d : Word) (old : BankWord),
      ((∀ i, i < 4 → l.getLsbD i = false → laneGood old i = true) →
        mergeDecision (.update l v) old = some (goodWord (mergeLanes l v old.data)) ∧
        mergeDecision (.direct l v) old = some (goodWord (mergeLanes l v old.data))) ∧
      ((∃ i, i < 4 ∧ l.getLsbD i = false ∧ laneGood old i = false) →
        mergeDecision (.update l v) old = none ∧ mergeDecision (.direct l v) old = none) ∧
      (isGood old = true → mergeDecision (.delta d) old = some (goodWord (old.data ^^^ d))) ∧
      (isGood old = false → mergeDecision (.delta d) old = none)))

/-- A word of a consistent stripe is the XOR of its parity word and the other data words, and the accumulator gathers
exactly that; one bad or missing contribution flags it (R85, R118, R130). -/
def Obligations.AccumulatorReconstructs : Prop :=
  ∀ (w o : Nat), o < w →
    (∀ (front back : List Word) (x : Word),
      let acc := (front ++ back ++ [xorWords (front ++ [x] ++ back)]).foldl (fun a y => a.contribute o (some y)) (freshAccum w)
      acc.word o = x ∧ acc.flag o = false) ∧
    ∀ cs : List (Option Word), none ∈ cs → (cs.foldl (fun a c => a.contribute o c) (freshAccum w)).flag o = true

/-- When the holder of position k answers an UPDATE with a DELTA, parity XOR that delta is the XOR of the stripe's data
words with the merged word in its place (R111, R113); two DELTA applications to one good parity word give the same
word in either order (R16). -/
def Obligations.DeltasKeepParity : Prop :=
  (∀ (ws : List Word) (k : Nat) (old : BankWord) (f : Fields) (v : Word), k < ws.length → ws[k]? = some old.data →
     isGood old = true → f.payload = [v] →
     ∃ d, holderAnswer .update f [old] = { kind := .delta, f := { payload := [d] } } ∧
       xorWords (ws.set k (mergeLanes f.lanes v old.data)) = xorWords ws ^^^ d) ∧
  (∀ (d e : Word) (old : BankWord), isGood old = true →
     ∃ w, (mergeDecision (.delta d) old).bind (mergeDecision (.delta e)) = some (goodWord w) ∧
       (mergeDecision (.delta e) old).bind (mergeDecision (.delta d)) = some (goodWord w))

/-- Every stripe whose words are all good and whose parity is the XOR of its data at each offset passes the comparison of
folds; the fold leaves bad words out, and the bad list names every word bad in some lane, in ascending order (R142,
R148). -/
def Obligations.FoldsCompareStripes : Prop :=
  (∀ (w : Nat) (units : List (List Word)), (∀ u ∈ units, u.length = w) →
     foldUnit (((List.range w).map fun o => xorWords (units.map fun u => u.getD o 0)).map goodWord)
       = xorWords (units.map fun u => foldUnit (u.map goodWord))) ∧
  (∀ (ws : List BankWord),
     foldUnit ws = xorWords (ws.map fun b => if isGood b then b.data else 0) ∧
     (badOffsets ws).Pairwise (· < ·) ∧
     ∀ o, o ∈ badOffsets ws ↔ ∃ b, ws[o]? = some b ∧ isGood b = false)

/-! ### Resets -/

/-- POWER_ON_RESET puts every block at its reset value and keeps the bank's words (R14, R20, R41, R44, R45, R64, R65, R77,
R99, R138, R143, R158, R188 to R192), and the bank port's pins idle: BCEn, BWEn and BOEn high, BD and BP not driven
(R201). That the own state is INERT, the join mode COLD, the audit pointer, LDO, LERR and the fields of a FREE slot 0
before the release (log entry 7), that the straps last sampled stand until the release (log entry 19), and that another
station's message in progress is not ended by it (log entry 21) are the model's choices. -/
def Obligations.PowerOnResetsEveryBlock : Prop :=
  ∀ s : State, ∃ t, exec .powerOnReset s = .next t ∧
    t.inReset = true ∧ t.mem = {} ∧ t.link = { bus := if s.link.bus = .other then .other else .free } ∧ t.tu = {} ∧
    t.filter = [] ∧ t.holder = {} ∧ t.home = {} ∧ t.sweep = {} ∧ t.port = {} ∧ t.counters = {} ∧ t.causes = {} ∧
    t.enables = {} ∧ t.bank = { words := s.bank.words } ∧ t.straps = s.straps ∧
    ∃ ba, bankPins t = some { bce := true, boe := true, bwe := true, driven := false, ba := ba }

/-- RESETN_ASSERTED keeps the incarnation, sets RESET_LOSS when the queue held an entry or an access was stalled, answers
the access the host holds, cuts the claim in progress, and puts every other block at its reset value (R20, R41, R44,
R64, R65, R77, R99, R138, R143, R158, R188 to R192), the bank port's pins idle (R201). A merge claim cut writes nothing
(R20, R112, R127; that this holds whatever number of accesses was made is log entry 35). That the number of word accesses
made is an operand (log entry 8), that the own state is INERT, the join mode COLD, the audit pointer and the fields of a
FREE slot 0 before the release (log entry 7), that the straps stand until then (log entry 19), that LDO and LERR keep
their values when no read waits for its answer (log entry 20), and that another's message goes on (log entry 21) are the model's. -/
def Obligations.ResetnResetsAllButItsRecord : Prop :=
  ∀ (n : Nat) (s : State), ∃ t, exec (.resetnAsserted n) s = .next t ∧
    t.inReset = true ∧ t.mem = { ownInc := s.mem.ownInc } ∧
    t.link = { bus := if s.link.bus = .other then .other else .free } ∧ t.tu = {} ∧ t.filter = [] ∧ t.holder = {} ∧
    t.home = {} ∧ t.sweep = {} ∧ t.counters = {} ∧ t.enables = {} ∧ t.straps = s.straps ∧
    t.causes = { resetLoss := s.causes.resetLoss || decide (s.port.entries ≠ []) || s.port.stalled } ∧
    t.port.entries = [] ∧ t.port.stalled = false ∧ t.port.firstFault = none ∧ t.port.access = s.port.access ∧
    t.port.ack = s.port.access.isSome ∧
    (∀ a, s.port.access = some a → s.port.ack = false → a.isWrite = false → t.port.ldo = 0 ∧ t.port.lerr = true) ∧
    ((∀ a, s.port.access = some a → s.port.ack = true ∨ a.isWrite = true) →
      t.port.ldo = s.port.ldo ∧ t.port.lerr = s.port.lerr) ∧
    t.bank.pointer = .holder ∧ t.bank.busy = none ∧ (∀ who, t.bank.due who = []) ∧
    (∃ ba, bankPins t = some { bce := true, boe := true, bwe := true, driven := false, ba := ba }) ∧
    (s.bank.busy = none → t.bank.words = s.bank.words) ∧
    ∀ b, s.bank.busy = some b →
      (∀ w, b.claim.op = .wordWrite w → t.bank.words =
        if n = 0 then s.bank.words else bankSet s.bank.words b.claim.first (formWord w)) ∧
      (∀ ws, b.claim.op = .burstWrite ws → t.bank.words = bankSetAll s.bank.words ((numbered b.claim.first ws).take n)) ∧
      (∀ g, b.claim.op = .merge g → t.bank.words = s.bank.words) ∧
      (b.claim.op = .wordRead → t.bank.words = s.bank.words) ∧
      ∀ c, b.claim.op = .burstRead c → t.bank.words = s.bank.words

/-- RESET_RELEASE samples the straps. With valid straps it starts joining: the next incarnation, JOINING, the strapped
join mode, every view entry cleared but the own, and a HELLO to ALL queued; with invalid ones (GS 0 or 7, US 3, or a
station number not below N) the station is INERT and its incarnation stays (R1, R2, R43, R44, R52, R53, R143). While
INERT, it drives nothing on the bank port and holds BCEn, BWEn and BOEn high (R201). -/
def Obligations.ReleaseSamplesTheStraps : Prop :=
  (∀ (pins : StrapPins) (s : State), s.inReset = true → strapsValid pins = true → s.mem.ownState = .inert →
     s.link.notices.q = [] →
     exec (.resetRelease pins) s = .next
       { s with
         straps := pins, inReset := false, sweep := { s.sweep with auditPtr := pins.sn.toNat }
         mem := { s.mem with
           ownState := .joining, ownInc := s.mem.ownInc + 1, joinMode := if pins.sm then .warm else .cold
           views := (List.replicate 8 {}).set pins.sn.toNat
             { state := .joining, inc := s.mem.ownInc + 1, mode := if pins.sm then .warm else .cold }
           working := [], window := .closed }
         link := { s.link with notices := { s.link.notices with q := [
           { msg := { kind := .hello, source := pins.sn.toNat, dest := .all, sState := .joining,
                      sInc := s.mem.ownInc + 1, mode := if pins.sm then .warm else .cold } }] } } }) ∧
  (∀ (pins : StrapPins) (s : State), s.inReset = true →
     (pins.gs = 0 ∨ pins.gs = 7 ∨ pins.us = 3 ∨ pins.gs.toNat + 2 ≤ pins.sn.toNat) →
     exec (.resetRelease pins) s = .next
       { s with straps := pins, inReset := false, sweep := { s.sweep with auditPtr := pins.sn.toNat },
                mem := { s.mem with ownState := .inert } }) ∧
  (∀ s : State, s.mem.ownState = .inert →
     ∃ ba, bankPins s = some { bce := true, boe := true, bwe := true, driven := false, ba := ba })

/-! ### The local port -/

/-- A host read is answered or queued by the first row that applies (R177, R178, R186): ERR and 0 in reset; 0 without a
lane; the window word's lanes; ERR and 0 for INERT and RANGE, with nothing counted; an entry, or a stall, for SHARED. -/
def Obligations.HostReadBySort : Prop :=
  ∀ (addr : BitVec 25) (lanes : Lanes) (s : State), s.port.access = none →
    let held : Port := { s.port with access := some { isWrite := false, addr := addr, lanes := lanes, data := 0 } }
    let place := placeOf s.straps addr.toNat
    (s.inReset = true → exec (.hostRead addr lanes) s = .next (s.setPort { held with ack := true, ldo := 0, lerr := true })) ∧
    (s.inReset = false → lanes = 0 →
      exec (.hostRead addr lanes) s = .next (s.setPort { held with ack := true, ldo := 0, lerr := false })) ∧
    (s.inReset = false → lanes ≠ 0 → classOf s.straps addr.toNat = .window →
      exec (.hostRead addr lanes) s = .next (s.setPort { held with
        ack := true, ldo := maskLanes lanes (windowWord s ((addr.toNat - 0x1FFFF00) / 4)), lerr := false })) ∧
    (s.inReset = false → lanes ≠ 0 → (classOf s.straps addr.toNat = .inert ∨ classOf s.straps addr.toNat = .range) →
      exec (.hostRead addr lanes) s = .next (s.setPort { held with ack := true, ldo := 0, lerr := true })) ∧
    (s.inReset = false → lanes ≠ 0 → classOf s.straps addr.toNat = .shared → s.port.entries.length < 8 →
      exec (.hostRead addr lanes) s = .next (s.setPort { held with
        stalled := false
        entries := s.port.entries ++ [{
          isWrite := false, addr := wordAddr addr.toNat, stripe := place.stripe, position := place.position,
          offset := place.offset, lanes := lanes, data := 0, phase := .waiting }] })) ∧
    (s.inReset = false → lanes ≠ 0 → classOf s.straps addr.toNat = .shared → 8 ≤ s.port.entries.length →
      exec (.hostRead addr lanes) s = .next (s.setPort { held with stalled := true }))

/-- A host write outside the window is taken at once with a write fault for INERT and RANGE, taken as an entry when the
queue has a place, and otherwise stalled (R177, R178, R184). That a write leaves LDO and LERR as they were is the model's
choice (log entry 20). -/
def Obligations.HostWriteBySort : Prop :=
  ∀ (addr : BitVec 25) (lanes : Lanes) (data : Word) (s : State), s.port.access = none →
    let held : Port := { s.port with access := some { isWrite := true, addr := addr, lanes := lanes, data := data } }
    let place := placeOf s.straps addr.toNat
    let fault (k : PortFault) : State :=
      { s with
        port := { held with ack := true, firstFault := s.port.firstFault <|> some (wordAddr addr.toNat, k) }
        counters := { s.counters with writeFaults := min (s.counters.writeFaults + 1) 65535 }
        causes := { s.causes with fault := true } }
    (s.inReset = true ∨ lanes = 0 → exec (.hostWrite addr lanes data) s = .next (s.setPort { held with ack := true })) ∧
    (s.inReset = false → lanes ≠ 0 → classOf s.straps addr.toNat = .inert →
      exec (.hostWrite addr lanes data) s = .next (fault .inert)) ∧
    (s.inReset = false → lanes ≠ 0 → classOf s.straps addr.toNat = .range →
      exec (.hostWrite addr lanes data) s = .next (fault .range)) ∧
    (s.inReset = false → lanes ≠ 0 → classOf s.straps addr.toNat = .shared → s.port.entries.length < 8 →
      exec (.hostWrite addr lanes data) s = .next (s.setPort { held with
        ack := true, stalled := false
        entries := s.port.entries ++ [{
          isWrite := true, addr := wordAddr addr.toNat, stripe := place.stripe, position := place.position,
          offset := place.offset, lanes := lanes, data := data, phase := .waiting }] })) ∧
    (s.inReset = false → lanes ≠ 0 → classOf s.straps addr.toNat = .shared → 8 ≤ s.port.entries.length →
      exec (.hostWrite addr lanes data) s = .next (s.setPort { held with stalled := true }))

/-- The host's writes to the window out of reset: to the cause-flag word, each flag written 1 in lane 0 is cleared, and
clearing FAULT empties the first-fault record; to the enables word, lane 0 writes the five enables; to any other word,
nothing (R186, R189, R190, R200). That a write leaves LDO and LERR as they were is the model's choice (log entry 20). -/
def Obligations.WindowWritesActOnLaneZero : Prop :=
  ∀ (lanes : Lanes) (data : Word) (index : BitVec 6) (s : State), s.port.access = none → s.inReset = false → lanes ≠ 0 →
    let held (i : BitVec 6) : Port := { s.port with
      access := some { isWrite := true, addr := BitVec.ofNat 25 (0x1FFFF00 + 4 * i.toNat), lanes := lanes, data := data }
      ack := true }
    let one (n : Nat) : Bool := lanes.getLsbD 0 && data.getLsbD n
    let enable (n : Nat) (old : Bool) : Bool := if lanes.getLsbD 0 then data.getLsbD n else old
    exec (.causeFlagWrite lanes data) s = .next { s with
      port := { held 20 with firstFault := if one 0 then none else s.port.firstFault }
      causes := { fault := s.causes.fault && !one 0, view := s.causes.view && !one 1, audit := s.causes.audit && !one 2,
                  rebuildDone := s.causes.rebuildDone && !one 3, resetLoss := s.causes.resetLoss && !one 4 } } ∧
    exec (.enablesWrite lanes data) s = .next { s with
      port := held 21
      enables := { fault := enable 0 s.enables.fault, view := enable 1 s.enables.view, audit := enable 2 s.enables.audit,
                   rebuildDone := enable 3 s.enables.rebuildDone, resetLoss := enable 4 s.enables.resetLoss } } ∧
    (WellFormed (.windowWriteOther index lanes data) = true →
      exec (.windowWriteOther index lanes data) s = .next (s.setPort (held index)))

/-- The strap readback, the own-state word, the view words, the pointers, the counters, the first-fault record, the causes
and the enables read as R187, R199 and R200 lay them out, and unused words read 0; the attention output is asserted
exactly while some cause is set with its enable set (R190). -/
def Obligations.WindowReadsAsLaidOut : Prop :=
  (∀ s : State,
     windowWord s 0 = BitVec.ofNat 32 (s.straps.sn.toNat + 2 ^ 4 * s.straps.gs.toNat + 2 ^ 8 * s.straps.us.toNat
       + 2 ^ 10 * s.straps.bs.toNat + 2 ^ 12 * s.straps.sm.toNat + 2 ^ 13 * s.straps.ap.toNat
       + 2 ^ 16 * (!strapsValid s.straps).toNat) ∧
     windowWord s 1 = BitVec.ofNat 32 (s.mem.ownState.code + 2 ^ 4 * s.mem.ownInc.toNat
       + 2 ^ 8 * (decide (s.mem.joinMode = .warm)).toNat) ∧
     (∀ j, j < 8 → windowWord s (2 + j) =
       if s.mem.ownState ≠ .inert ∧ j < s.n then
         BitVec.ofNat 32 ((viewAt s j).state.code + 2 ^ 4 * (viewAt s j).inc.toNat
           + 2 ^ 8 * (decide ((viewAt s j).mode = .warm)).toNat + 2 ^ 15)
       else 0) ∧
     (List.range 8).map (fun i => windowWord s (10 + i)) = [BitVec.ofNat 32 s.sweep.rebuildPtr,
       BitVec.ofNat 32 s.sweep.auditPtr, BitVec.ofNat 32 s.counters.recovered, BitVec.ofNat 32 s.counters.lost,
       BitVec.ofNat 32 s.counters.resyncs, BitVec.ofNat 32 s.counters.repairDrops,
       BitVec.ofNat 32 s.counters.writeFaults, BitVec.ofNat 32 s.counters.busyRefusals] ∧
     (s.port.firstFault = none → windowWord s 18 = 0 ∧ windowWord s 19 = 0) ∧
     (∀ a k, s.port.firstFault = some (a, k) → windowWord s 18 = BitVec.ofNat 32 a ∧ windowWord s 19 = BitVec.ofNat 32 k.code) ∧
     windowWord s 20 = BitVec.ofNat 32 (s.causes.fault.toNat + 2 * s.causes.view.toNat + 4 * s.causes.audit.toNat
       + 8 * s.causes.rebuildDone.toNat + 16 * s.causes.resetLoss.toNat) ∧
     windowWord s 21 = BitVec.ofNat 32 (s.enables.fault.toNat + 2 * s.enables.view.toNat + 4 * s.enables.audit.toNat
       + 8 * s.enables.rebuildDone.toNat + 16 * s.enables.resetLoss.toNat) ∧
     ∀ i, 22 ≤ i → windowWord s i = 0) ∧
  (∀ s : State, attention s = true ↔ causesWord s.causes &&& causesWord s.enables ≠ 0)

/-- STALLED_ACCESS_TAKEN takes the stalled access when the queue has a place, a write being released with it (R178, R182);
LREQN_RELEASE ends the handshake of an answered access (R194). ENTRY_START starts the oldest WAITING entry that no
earlier entry of its word holds back, in ACTIVE or REBUILDING with fewer than four started: it becomes FIRST and asks
for a READ to the holder or a WRITE to the home (R100, R104, R180, R181). That a write taken and the release of LREQn
leave LDO and LERR as they were is the model's choice (log entry 20). -/
def Obligations.AccessesGoOn : Prop :=
  ((∀ (a : Access) (s : State), s.port.access = some a → s.port.stalled = true → s.port.entries.length < 8 →
     exec .stalledAccessTaken s = .next (s.setPort { s.port with
       stalled := false
       ack := s.port.ack || a.isWrite
       entries := s.port.entries ++ [{
         isWrite := a.isWrite, addr := wordAddr a.addr.toNat, stripe := (placeOf s.straps a.addr.toNat).stripe,
         position := (placeOf s.straps a.addr.toNat).position, offset := (placeOf s.straps a.addr.toNat).offset,
         lanes := a.lanes, data := if a.isWrite then a.data else 0, phase := .waiting }] })) ∧
   ∀ s : State, s.port.ack = true →
     exec .lreqnRelease s = .next (s.setPort { s.port with access := none, ack := false })) ∧
  (∀ (front back : List LocalEntry) (e : LocalEntry) (s : State), s.port.entries = front ++ e :: back →
     serving s = true → s.port.entries.countP (·.started) < 4 → e.phase = .waiting →
     (∀ x ∈ front, x.addr ≠ e.addr) →
     (∀ (a b : List LocalEntry) (x : LocalEntry), front = a ++ x :: b → x.phase = .waiting → ∃ y ∈ a, y.addr = x.addr) →
     exec .entryStart s = .next
       { s with
         port := { s.port with entries := front ++ { e with phase := .first } :: back }
         tu := { s.tu with asks := s.tu.asks ++ [
           { owner := .port e.addr
             kind := if e.isWrite then .write else .read
             dest := if e.isWrite then homeOf s.n e.stripe else holderOf s.n e.stripe e.position
             f := { stripe := e.stripe, position := e.position, offset := e.offset, lanes := e.lanes
                    payload := if e.isWrite then [e.data] else [] } }] } })

/-! ### The group bus -/

/-- ACCEPTANCE_PHASE of another's message. A good one with room is accepted: the sender's view entry moves forward from
the header, VIEW is set if that changed its state, and the message joins the inbound queue or the inbox; a HELLO
passes whatever the view holds. REFUSE for a bad check, an undefined kind, a malformed message or a full queue; ACCEPT
and a FAIL to the sender for a failed incarnation; ACCEPT alone for another incarnation; nothing for a message not
addressed here, or while INERT or in reset; no phase for a message cut off (R3, R30, R39, R40, R41, R46). That an ABSENT
entry moved by a header keeps its join mode (log entry 26), that a frame of fewer than two bytes is addressed to nobody
(log entry 10), and that the answer stays as the record of the last such phase (log entry 34) are the model's. -/
def Obligations.ReceivedMessagesAreAnswered : Prop :=
  (∀ (bs : List Byte) (m : Msg) (s : State), s.link.bus = .other → live s = true → addressedTo s.own bs = true →
     decodeFrame s.straps bs = .ok m → inboundFull m.kind s = false →
     let v := viewAt s m.source
     let link : Link := { s.link with bus := .free, answer := .accept }
     let placed : Link := if m.kind.isReply then { link with inbox := s.link.inbox ++ [m] }
       else { link with inbound := s.link.inbound ++ [m] }
     (m.kind = .hello → exec (.acceptancePhase (.received bs)) s = .next (s.setLink placed)) ∧
     (m.kind ≠ .hello → v.state ≠ .failed → (v.state = .absent ∨ v.inc = m.sInc) →
       let x := m.sState.toView
       let st := if v.state = .absent ∨ v.state = .joining ∨ (v.state = .rebuilding ∧ x = .active) then x else v.state
       exec (.acceptancePhase (.received bs)) s = .next { s with
         link := placed
         mem := { s.mem with views := s.mem.views.set m.source { v with state := st, inc := m.sInc } }
         causes := { s.causes with view := s.causes.view || decide (st ≠ v.state) } })) ∧
  (∀ (bs : List Byte) (s : State), s.link.bus = .other →
     let answered (a : Answer) : State := s.setLink { s.link with bus := .free, answer := a }
     (live s = false ∨ addressedTo s.own bs = false →
       exec (.acceptancePhase (.received bs)) s = .next (answered .none)) ∧
     (live s = true → addressedTo s.own bs = true → (∀ m, decodeFrame s.straps bs ≠ .ok m) →
       exec (.acceptancePhase (.received bs)) s = .next (answered .refuse)) ∧
     (∀ m, live s = true → addressedTo s.own bs = true → decodeFrame s.straps bs = .ok m →
       (inboundFull m.kind s = true → exec (.acceptancePhase (.received bs)) s = .next (answered .refuse)) ∧
       (inboundFull m.kind s = false → m.kind ≠ .hello →
         ((viewAt s m.source).state = .failed → (viewAt s m.source).inc = m.sInc →
           exec (.acceptancePhase (.received bs)) s =
             .next (queueNotice (failNotice (.station m.source) m.source m.sInc) (answered .accept))) ∧
         ((viewAt s m.source).state ≠ .absent → (viewAt s m.source).inc ≠ m.sInc →
           exec (.acceptancePhase (.received bs)) s = .next (answered .accept)))) ∧
     exec (.acceptancePhase .cut) s = .next (s.setLink { s.link with bus := .free }))

/-- HELD_REPLY_QUEUED gives a free place to the held reply whose wait began first: it is queued with its header and leaves
the waiters (R21, R35, R79). -/
def Obligations.HeldReplyTakesFreedPlace : Prop :=
  ∀ (m : OutMsg) (rest : List Waiter) (s : State), s.link.waiters = .reply m :: rest → 0 < freePlaces s → m.op = none →
    replyDropped s m.msg = false →
    ∃ t, exec .heldReplyQueued s = .next t ∧ t.link.waiters = rest ∧
      t.link.replies.q = s.link.replies.q ++ [{ msg :=
        { m.msg with source := s.own, sState := shownState s.mem.ownState, sInc := s.mem.ownInc }, op := m.op }] ∧
      t.link.inbound = s.link.inbound ∧ t.link.requests = s.link.requests ∧ t.link.notices = s.link.notices ∧
      t.filter = (filterDone m.msg s).filter ∧ t.mem = s.mem ∧ t.tu = s.tu ∧ t.holder = s.holder ∧ t.port = s.port ∧
      t.sweep = s.sweep ∧ t.counters = s.counters ∧ t.causes = s.causes ∧ t.bank = s.bank ∧ sameRecord s t

/-- The end of the station's own message (R32, R33, R34, R68): delivered, a request leaves its queue, its slot becomes
SENT with one attempt more and the 40 µs response timer; refused, the head stays, counts one refusal and waits 2 µs;
unanswered by its one station for the first time, or refused a 32nd time, it stays and counts that; the second time it
leaves and its destination is declared FAILED (R59); to ALL it leaves unless it is refused fewer than 32 times, and the
first send of the own HELLO opens the join window (R54). `settleHome` alone is done at the home (R82, R85). IDLE_GAP clears the deferred flag when the bus is free and the station offers nothing (R29);
REFUSE_BACKOFF_EXPIRY ends the refuse backoff of its queue's head (R32). The order `settleHome` gives the accumulator
queue is the model's (log entry 17). -/
def Obligations.SendsEndByTheLines : Prop :=
  (∀ (m : OutMsg) (rest : List OutMsg) (sent : Msg) (s : State), s.mem.window ≠ .expired → m.msg.kind ≠ .hello →
     (∀ accept, s.link.bus = .own .request sent false → s.link.requests.q = m :: rest → s.link.requests.refusals < 31 →
       exec (.acceptancePhase (.sent accept true)) s = .next { s with
         home := settleHome s.home
         link := { s.link with
           bus := .free
           requests := { s.link.requests with refusals := s.link.requests.refusals + 1, backoff := some 2 } } }) ∧
     (∀ j, s.link.bus = .own .request sent false → s.link.requests.q = m :: rest → m.msg.dest = .station j →
       s.link.requests.unanswered = 0 →
       exec (.acceptancePhase (.sent false false)) s = .next { s with
         home := settleHome s.home
         link := { s.link with bus := .free, requests := { s.link.requests with unanswered := 1 } } }) ∧
     (s.link.bus = .own .request sent false → s.link.requests.q = m :: rest → m.msg.kind.isRequest = true →
       (slotAt s m.msg.tag).state = .queued →
       exec (.acceptancePhase (.sent true false)) s = .next { s with
         home := settleHome s.home
         link := { s.link with bus := .free, requests := { q := rest } }
         tu := { s.tu with slots := s.tu.slots.set m.msg.tag { slotAt s m.msg.tag with
           state := .sent, attempts := (slotAt s m.msg.tag).attempts + 1, response := some 40, held := none,
           backoff := none } } }) ∧
     (s.link.bus = .own .reply sent false → s.link.replies.q = m :: rest → m.msg.kind.isRequest = false → m.op = none →
       exec (.acceptancePhase (.sent true false)) s = .next { s with
         home := settleHome s.home
         link := { s.link with bus := .free, replies := { q := rest } } })) ∧
  (∀ (m : OutMsg) (rest : List OutMsg) (sent : Msg) (j : Nat) (accept refuse : Bool) (s : State),
     s.mem.window ≠ .expired → m.msg.kind ≠ .hello → s.link.bus = .own .request sent false →
     s.link.requests.q = m :: rest → m.msg.dest = .station j → m.op = none →
     ((refuse = true ∧ s.link.requests.refusals = 31) ∨ (refuse = false ∧ accept = false)) →
     (s.link.requests.unanswered = 0 → refuse = true →
       exec (.acceptancePhase (.sent accept refuse)) s = .next { s with
         home := settleHome s.home
         link := { s.link with
           bus := .free, requests := { s.link.requests with refusals := 0, unanswered := 1 } } }) ∧
     (s.link.requests.unanswered = 1 → s.mem.views.length = 8 → j < 8 → j ≠ s.own →
       ((viewAt s j).state = .joining ∨ (viewAt s j).state = .rebuilding ∨ (viewAt s j).state = .active) →
       ∃ t, exec (.acceptancePhase (.sent accept refuse)) s = .next t ∧
         viewAt t j = { viewAt s j with state := .failed } ∧ WorkEnded j t ∧ t.causes.view = true ∧
         (∃ q ∈ t.link.notices.q, q.msg.kind = .fail ∧ q.msg.dest = .all ∧ q.msg.target = j ∧
           q.msg.targetInc = (viewAt s j).inc) ∧
         (∀ q ∈ t.link.requests.q, q ∈ rest) ∧ sameRecord s t)) ∧
  (∀ (m : OutMsg) (rest : List OutMsg) (sent : Msg) (accept : Bool) (s : State), s.mem.window ≠ .expired →
     s.link.bus = .own .notice sent false → s.link.notices.q = m :: rest → m.msg.dest = .all →
     m.msg.kind.isRequest = false → m.op = none →
     let ended (q : OutQ) : State := { s with
       home := settleHome s.home
       mem := { s.mem with window :=
         if m.msg.kind = .hello ∧ s.mem.ownState = .joining ∧ s.mem.window = .closed then .running 2000
         else s.mem.window }
       link := { s.link with bus := .free, notices := q } }
     exec (.acceptancePhase (.sent accept false)) s = .next (ended { q := rest }) ∧
     (31 ≤ s.link.notices.refusals → exec (.acceptancePhase (.sent accept true)) s = .next (ended { q := rest })) ∧
     (s.link.notices.refusals < 31 → exec (.acceptancePhase (.sent accept true)) s = .next (ended
       { s.link.notices with refusals := s.link.notices.refusals + 1, backoff := some 2 }))) ∧
  ((∀ s : State, s.link.bus = .free → ownOffer s = none →
     exec .idleGap s = .next (s.setLink { s.link with deferred := false })) ∧
   ∀ s : State,
     exec (.refuseBackoffExpiry .reply) s =
       .next (s.setLink { s.link with replies := { s.link.replies with backoff := none } }) ∧
     exec (.refuseBackoffExpiry .request) s =
       .next (s.setLink { s.link with requests := { s.link.requests with backoff := none } }) ∧
     exec (.refuseBackoffExpiry .notice) s =
       .next (s.setLink { s.link with notices := { s.link.notices with backoff := none } }))

/-! ### Slots -/

/-- SLOT_GRANT gives the oldest ask the FREE slot with the lowest tag: its seq bit for the destination is changed, its
fields are written and its counts are 0; then the request is queued with a current header when the destination is
available, handed to the own engine when it is the own station, and otherwise ended UNAVAILABLE at once, the slot FREE
with its changed seq and the outcome handed to its owner (R66, R67, R73, R75): a local entry then goes to its second
phase or finishes LOST (R101, R105, R182, R185). An exclusive operation makes its next ask after the grant (R66, R95,
R128). `settleHome` is what is done at the home after the grant (R82, R85; the order in the accumulator queue is the
model's, log entry 17). -/
def Obligations.OldestAskGetsLowestSlot : Prop :=
  ∀ (a : Ask) (rest : List Ask) (n : Nat) (s : State), s.tu.asks = a :: rest → s.tu.slots.length = 8 → n < 8 →
    (slotAt s n).state = .free → (∀ u, u < n → (slotAt s u).state ≠ .free) →
    let bit := !(slotAt s n).seqs.getD a.dest false
    let slot (st : SlotState) (o : Option Owner) : Slot := {
      seqs := (slotAt s n).seqs.set a.dest bit, state := st, owner := o, kind := a.kind,
      dest := a.dest, f := a.f, attempts := 0, busyCount := 0 }
    let copy : OutMsg := { msg :=
      { kind := a.kind, source := s.own, dest := .station a.dest, sState := shownState s.mem.ownState,
        sInc := s.mem.ownInc, tag := n, seq := bit, f := a.f } }
    let queued := a.dest ≠ s.own ∧ (viewAt s a.dest).state.available = true ∧ a.dest < (slotAt s n).seqs.length
    let ended : State := { s with tu := { slots := s.tu.slots.set n (slot .free none), asks := rest } }
    let gone := a.dest ≠ s.own ∧ (viewAt s a.dest).state.available = false
    ((∀ st, a.owner ≠ .op st) →
      (queued → exec .slotGrant s = .next { s with
        home := settleHome s.home
        tu := { slots := s.tu.slots.set n (slot .queued (some a.owner)), asks := rest }
        link := { s.link with requests := { s.link.requests with q := s.link.requests.q ++ [copy] } } }) ∧
      (a.dest = s.own → (a.kind = .write ∨ a.kind = .recover ∨ a.kind = .rebuild) →
        exec .slotGrant s = .next { s with
          home := settleHome { s.home with handoffs := s.home.handoffs ++ [n] }
          tu := { slots := s.tu.slots.set n (slot .sent (some a.owner)), asks := rest } }) ∧
      (a.dest = s.own → (a.kind ≠ .write ∧ a.kind ≠ .recover ∧ a.kind ≠ .rebuild) →
        exec .slotGrant s = .next { s with
          home := settleHome s.home
          holder := { s.holder with handoffs := s.holder.handoffs ++ [n] }
          tu := { slots := s.tu.slots.set n (slot .sent (some a.owner)), asks := rest } })) ∧
    (∀ st op, a.owner = .op st → opAt s st = some op → (∀ x ∈ rest, x.owner ≠ .op st) → queued →
      ∃ t, exec .slotGrant s = .next t ∧
        t.tu = { slots := s.tu.slots.set n (slot .queued (some a.owner)), asks := rest ++ op.toAsk.take 1 } ∧
        opAt t st = some { op with
          toAsk := op.toAsk.drop 1, outstanding := op.outstanding + min op.toAsk.length 1 } ∧
        t.link = { s.link with requests := { s.link.requests with q := s.link.requests.q ++ [copy] } } ∧
        t.home.pool = s.home.pool ∧ t.mem = s.mem ∧ t.holder = s.holder ∧ t.port = s.port ∧ t.counters = s.counters ∧
        t.bank = s.bank ∧ sameRecord s t) ∧
    (gone → exec .slotGrant s = .next (settle (afterGrant a.owner
      (handOutcome n { owner := some a.owner, kind := a.kind, dest := a.dest, f := a.f } .unavailable ended)))) ∧
    (∀ addr e, a.owner = .port addr → startedEntry s addr = some e → gone →
      let next := if e.isWrite then holderOf s.n e.stripe e.position else homeOf s.n e.stripe
      (e.phase = .first → reachable s next = true → ∃ t, exec .slotGrant s = .next t ∧
        t.tu = { slots := s.tu.slots.set n (slot .free none), asks := rest ++ [{
          owner := .port e.addr, kind := if e.isWrite then .store else .recover, dest := next
          f := { stripe := e.stripe, position := e.position, offset := e.offset, lanes := e.lanes
                 count := if e.isWrite then 1 else 0, payload := if e.isWrite then [e.data] else []
                 voids := if e.isWrite then [false] else [] } }] } ∧
        t.port = { s.port with entries := s.port.entries.map fun x =>
          if x.addr = e.addr ∧ x.started = true then { x with phase := .second } else x } ∧
        t.link = s.link ∧ t.mem = s.mem ∧ t.counters = s.counters ∧ t.causes = s.causes ∧ sameRecord s t) ∧
      (e.phase = .second ∨ reachable s next = false → ∃ t, exec .slotGrant s = .next t ∧
        t.tu = { slots := s.tu.slots.set n (slot .free none), asks := rest } ∧
        (e.isWrite = true →
          t.port = { entryLeft s e.addr with firstFault := s.port.firstFault <|> some (e.addr, .lost) } ∧
          t.counters = { s.counters with writeFaults := min (s.counters.writeFaults + 1) 65535 } ∧
          t.causes = { s.causes with fault := true }) ∧
        (e.isWrite = false →
          t.port = { entryLeft s e.addr with ack := true, ldo := 0, lerr := true } ∧
          t.counters = { s.counters with lost := min (s.counters.lost + 1) 65535 } ∧ t.causes = s.causes) ∧
        t.link = s.link ∧ t.mem = s.mem ∧ sameRecord s t))

/-- The three timers of a slot (R69, R71, R72, R75): a response expiry after the first delivery, a held expiry and a
backoff expiry queue a new copy with the same tag and seq and a current header; a self-addressed request is handed
over again. HOLD and BUSY taken by a slot (R70, R72): HOLD makes it HELD for 10 ms and withdraws a queued copy; BUSY
raises the BUSY count, at most to 8, and, but for a queued copy, starts a backoff of 5 µs times the count. That a BUSY
taken while a copy is queued sets the attempt count to 0 is the model's choice (log entry 32). A timer holds the
microseconds it was started with, and its expiry is a command: the model's form (log entry 3). -/
def Obligations.SlotsGoByRepliesAndTimers : Prop :=
  (∀ (tag : BitVec 3) (s : State),
     let x := slotAt s tag.toNat
     let resent : State := { s with
       tu := { s.tu with slots := s.tu.slots.set tag.toNat { x with
         state := .queued, response := none, held := none, backoff := none } }
       link := { s.link with requests := { s.link.requests with q := s.link.requests.q ++ [{ msg :=
         { kind := x.kind, source := s.own, dest := .station x.dest, sState := shownState s.mem.ownState,
           sInc := s.mem.ownInc, tag := tag.toNat, seq := x.seqs.getD x.dest false, f := x.f } }] } } }
     (x.state = .sent → x.response ≠ none → x.attempts < 2 → exec (.responseTimerExpiry tag) s = .next resent) ∧
     (x.state = .held → x.held ≠ none → exec (.heldTimerExpiry tag) s = .next resent) ∧
     (x.state = .backoff → x.backoff ≠ none → x.dest ≠ s.own → exec (.backoffTimerExpiry tag) s = .next resent) ∧
     (x.state = .backoff → x.backoff ≠ none → x.dest = s.own → x.kind = .write →
       exec (.backoffTimerExpiry tag) s = .next { s with
         tu := { s.tu with slots := s.tu.slots.set tag.toNat { x with
           state := .sent, response := none, held := none, backoff := none } }
         home := { s.home with handoffs := s.home.handoffs ++ [tag.toNat] } })) ∧
  (∀ (m : Msg) (rest : List Msg) (o : Owner) (s : State), Takes s m rest o →
     let x := slotAt s m.tag
     let n := min (x.busyCount + 1) 8
     (m.kind = .hold → ∃ t, exec .hold s = .next t ∧
       t.tu = { s.tu with slots := s.tu.slots.set m.tag { x with
         state := .held, attempts := if x.state = .held then x.attempts else 0, held := some 10000, response := none,
         backoff := none } } ∧
       t.link.inbox = rest ∧ t.link.requests.q = s.link.requests.q.filter (fun q => q.msg.tag ≠ m.tag) ∧
       t.link.replies = s.link.replies ∧ t.link.notices = s.link.notices ∧ t.link.inbound = s.link.inbound ∧
       t.mem = s.mem ∧ t.filter = s.filter ∧ t.holder = s.holder ∧ t.home = s.home ∧ t.sweep = s.sweep ∧
       t.port = s.port ∧ t.counters = s.counters ∧ t.causes = s.causes ∧ t.bank = s.bank ∧ sameRecord s t) ∧
     (m.kind = .busy → x.state = .queued → exec .busy s = .next { s with
       link := { s.link with inbox := rest }
       tu := { s.tu with slots := s.tu.slots.set m.tag { x with busyCount := n, attempts := 0 } } }) ∧
     (m.kind = .busy → x.state ≠ .queued → exec .busy s = .next { s with
       link := { s.link with inbox := rest }
       tu := { s.tu with slots := s.tu.slots.set m.tag { x with
         state := .backoff, busyCount := n, attempts := if x.state = .backoff then x.attempts else 0,
         backoff := some (5 * n), response := none, held := none } } }))

/-- A second response expiry declares the destination FAILED: its entry keeps its incarnation, all its work here ends,
VIEW is set, and FAIL to ALL is queued (R47, R59, R69). -/
def Obligations.SecondExpiryDeclaresFailure : Prop :=
  ∀ (tag : BitVec 3) (s : State),
    let x := slotAt s tag.toNat
    let v := viewAt s x.dest
    s.mem.views.length = 8 → x.dest < 8 → x.dest ≠ s.own → x.state = .sent → x.response ≠ none → 2 ≤ x.attempts →
    (v.state = .joining ∨ v.state = .rebuilding ∨ v.state = .active) →
    ∃ t, exec (.responseTimerExpiry tag) s = .next t ∧ viewAt t x.dest = { v with state := .failed } ∧
      WorkEnded x.dest t ∧ t.causes.view = true ∧
      (∃ m ∈ t.link.notices.q, m.msg.kind = .fail ∧ m.msg.dest = .all ∧ m.msg.target = x.dest ∧ m.msg.targetInc = v.inc) ∧
      sameRecord s t

/-! ### Membership -/

/-- HELLO from another station, with its reply's place: the entry becomes JOINING with the HELLO's incarnation and mode
whatever it held, all the sender's work here ends, and a HELLO_RSP with the own state is queued to it; without the
place the head waits (R47, R48). That the HELLO_RSP is queued before the outcomes of the ended slots are handed out is
the model's choice (log entry 11). -/
def Obligations.HelloIsAnswered : Prop :=
  ∀ (m : Msg) (rest : List Msg) (s : State), live s = true → s.link.inbound = m :: rest → m.kind = .hello →
    s.mem.views.length = 8 → m.source < 8 → m.source ≠ s.own →
    (headPlace s = true → ∃ t, exec .hello s = .next t ∧
      viewAt t m.source = { state := .joining, inc := m.sInc, mode := m.mode } ∧ WorkEnded m.source t ∧
      (∃ q ∈ t.link.replies.q, q.msg.kind = .helloRsp ∧ q.msg.dest = .station m.source ∧
        q.msg.nState = shownState s.mem.ownState ∧ q.msg.tag = 0 ∧ q.msg.seq = false) ∧
      t.causes.view = (s.causes.view || decide ((viewAt s m.source).state ≠ .joining)) ∧
      t.mem.ownInc = s.mem.ownInc ∧ sameRecord s t) ∧
    (headPlace s = false → ∃ t, exec .hello s = .next t ∧ t.link.inbound = s.link.inbound ∧ t.mem = s.mem)

/-- HELLO_RSP while the join window runs records its sender's state in the working set, replacing an earlier record; at
other times it is discarded (R38, R49). STATE at the head moves its sender's entry as R50's table gives, and sets VIEW
when the state changed (R46, R50). That an ABSENT entry moved by a STATE keeps its join mode is the model's choice (log
entry 26). -/
def Obligations.JoinReportsMoveTheRecord : Prop :=
  (∀ (m : Msg) (rest : List Msg) (s : State), s.link.inbox = m :: rest → m.kind = .helloRsp →
     (s.mem.window ≠ .closed → ∃ t, exec .helloRsp s = .next t ∧
       (∀ e, e ∈ t.mem.working ↔ (e = (m.source, m.nState) ∨ (e ∈ s.mem.working ∧ e.1 ≠ m.source))) ∧
       t = { s with link := { s.link with inbox := rest }, mem := { s.mem with working := t.mem.working } }) ∧
     (s.mem.window = .closed → exec .helloRsp s = .next (s.setLink { s.link with inbox := rest }))) ∧
  (∀ (m : Msg) (rest : List Msg) (s : State), live s = true → s.link.inbound = m :: rest → m.kind = .state →
     let v := viewAt s m.source
     let x := m.nState.toView
     let v' : ViewEntry :=
       if v.state = .joining ∧ v.inc = m.sInc ∧ (x = .rebuilding ∨ x = .active) then { v with state := x }
       else if v.state = .rebuilding ∧ v.inc = m.sInc ∧ x = .active then { v with state := .active }
       else if v.state = .absent then { v with state := x, inc := m.sInc }
       else v
     ∃ t, exec .state s = .next t ∧ t.mem = { s.mem with views := s.mem.views.set m.source v' } ∧
       t.causes = { s.causes with view := s.causes.view || decide (v'.state ≠ v.state) } ∧ t.link.inbound = rest ∧
       t.link.inbox = s.link.inbox ∧ t.link.replies = s.link.replies ∧ t.link.requests = s.link.requests ∧
       t.link.notices = s.link.notices ∧ t.tu = s.tu ∧ t.filter = s.filter ∧ t.holder = s.holder ∧ t.home = s.home ∧
       t.sweep = s.sweep ∧ t.port = s.port ∧ t.counters = s.counters ∧ t.bank = s.bank ∧ sameRecord s t)

/-- FAIL about another station whose entry is JOINING, REBUILDING or ACTIVE in that incarnation makes it FAILED and ends
its work here, and queues no FAIL; any other is ignored (R47, R51). -/
def Obligations.FailsEndTheTarget : Prop :=
  ∀ (m : Msg) (rest : List Msg) (s : State), live s = true → s.link.inbound = m :: rest → m.kind = .fail →
    m.target ≠ s.own → s.mem.views.length = 8 → m.target < 8 →
    let v := viewAt s m.target
    let known := (v.state = .joining ∨ v.state = .rebuilding ∨ v.state = .active) ∧ v.inc = m.targetInc
    (known → ∃ t, exec .fail s = .next t ∧ viewAt t m.target = { v with state := .failed } ∧ WorkEnded m.target t ∧
      t.causes.view = true ∧ (∀ q ∈ t.link.notices.q, q.msg.kind = .fail → q ∈ s.link.notices.q) ∧ sameRecord s t) ∧
    (¬ known → ∃ t, exec .fail s = .next t ∧ t = s.setLink t.link ∧ t.link.inbound = rest ∧
      t.link.replies = s.link.replies ∧ t.link.requests = s.link.requests ∧ t.link.notices = s.link.notices)

/-- FAIL naming the station in its own incarnation expels it, and it joins again in the next incarnation; the bank's
words, the straps, the queued replies, the entries not started, the counters but for write faults, and the enables are
kept, but for what the bank claim in progress writes: it completes whole, its void words counted, and its result is
discarded; naming an older incarnation it is ignored (R20, R42, R52, R53, R61, R62, R63, R140, R193). That the claim
completes in the step of the expulsion is the model's reading (log entry 36). -/
def Obligations.OwnFailExpels : Prop :=
  ∀ (m : Msg) (rest : List Msg) (s : State), live s = true → s.link.inbound = m :: rest → m.kind = .fail →
    m.target = s.own →
    (m.targetInc = s.mem.ownInc → ∃ t, exec .fail s = .next t ∧
      t.mem.ownState = .joining ∧ t.mem.ownInc = s.mem.ownInc + 1 ∧ t.mem.window = .closed ∧ t.mem.working = [] ∧
      t.mem.fillProgress = 0 ∧
      t.mem.joinMode = (if s.mem.ownState = .rebuilding ∨ s.mem.ownState = .active then .warm else s.mem.joinMode) ∧
      (∀ j, j < 8 → j ≠ s.own → viewAt t j = {}) ∧
      (∀ x ∈ t.tu.slots, x.state = .free ∧ x.owner = none) ∧ t.tu.asks = [] ∧ t.filter = [] ∧ t.home = {} ∧
      t.holder = {} ∧ t.sweep = { auditPtr := s.own } ∧
      (s.bank.busy = none → t.bank = { words := s.bank.words } ∧ t.counters.lost = s.counters.lost) ∧
      (∀ b, s.bank.busy = some b →
        t.bank = { words := bankSetAll s.bank.words (claimWrites s.bank.words b.claim) } ∧
        t.counters.lost = min (s.counters.lost + claimVoids b.claim) 65535) ∧
      t.link.requests.q = [] ∧ t.link.inbound = rest ∧ t.link.inbox = s.link.inbox ∧
      t.link.replies.q.map (·.msg) = s.link.replies.q.map (·.msg) ∧
      t.link.notices.q.map (fun q => (q.msg.kind, q.msg.dest, q.msg.sInc)) = [(.hello, .all, s.mem.ownInc + 1)] ∧
      t.port.entries = s.port.entries.filter (fun e => !e.started) ∧
      t.counters = { s.counters with
        lost := t.counters.lost
        writeFaults := (s.port.entries.filter (fun e => e.started && e.isWrite)).foldl
          (fun n _ => min (n + 1) 65535) s.counters.writeFaults } ∧
      t.enables = s.enables ∧ t.straps = s.straps ∧ t.pending = s.pending) ∧
    (m.targetInc ≠ s.mem.ownInc → ∃ t, exec .fail s = .next t ∧ t = s.setLink t.link ∧ t.link.inbound = rest ∧
      t.link.replies = s.link.replies ∧ t.link.requests = s.link.requests ∧ t.link.notices = s.link.notices)

/-- JOIN_WINDOW_EXPIRY with the HELLO delivered takes the join decision: with a station recorded as working that is
REBUILDING or ACTIVE in the view, REBUILDING from stripe 0 with STATE(REBUILDING); with none, FILLING from stripe 0
when COLD, and ACTIVE with STATE(ACTIVE) when WARM; otherwise the decision waits for the delivery (R54, R55, R57,
R158). That a peer which joined again after its answer counts by its record is the model's reading (log entry 39). -/
def Obligations.JoinDecisionByWorkingPeers : Prop :=
  ∀ (n : Nat) (s : State), s.mem.window = .running n →
    let peer := ∃ e ∈ s.mem.working, e.2 ≠ .joining ∧ (viewAt s e.1).state.available = true
    let noHello := ∀ q ∈ s.link.notices.q, q.msg.kind ≠ .hello
    (¬ noHello → exec .joinWindowExpiry s = .next (s.setMem { s.mem with window := .expired })) ∧
    (noHello → peer → ∃ t, exec .joinWindowExpiry s = .next t ∧ t.mem.ownState = .rebuilding ∧
      t.sweep.rebuildPtr = 0 ∧ (t.sweep.rebuildStep ≠ .idle) ∧ t.mem.window = .closed ∧ t.mem.working = [] ∧
      (∃ q ∈ t.link.notices.q, q.msg.kind = .state ∧ q.msg.nState = .rebuilding) ∧ t.bank = s.bank ∧ t.port = s.port ∧
      sameRecord s t) ∧
    (noHello → ¬ peer → s.mem.joinMode = .cold → ∃ t, exec .joinWindowExpiry s = .next t ∧ t.mem.ownState = .filling ∧
      t.mem.fillProgress = 0 ∧ t.mem.window = .closed ∧ t.mem.working = [] ∧ t.link = s.link ∧
      t.bank = { s.bank with sweepDue := s.bank.sweepDue ++ [{
        first := bankIndex s.straps 0 0, op := .burstWrite (List.replicate s.w (some 0)), work := .fill }] } ∧
      t.sweep = s.sweep ∧ t.port = s.port ∧ sameRecord s t) ∧
    (noHello → ¬ peer → s.mem.joinMode = .warm → ∃ t, exec .joinWindowExpiry s = .next t ∧ t.mem.ownState = .active ∧
      t.mem.window = .closed ∧ t.mem.working = [] ∧ t.sweep = { s.sweep with auditTimer := apDecode s.straps.ap } ∧
      (∃ q ∈ t.link.notices.q, q.msg.kind = .state ∧ q.msg.nState = .active) ∧ t.bank = s.bank ∧ t.port = s.port ∧
      sameRecord s t)

/-- JOINING_NOT_READY answers a request at the head with NOT_READY while JOINING or FILLING, and drops the answer when the
view does not admit it; no engine and no filter sees the request (R36, R37, R56). -/
def Obligations.JoiningAnswersNotReady : Prop :=
  ∀ (m : Msg) (rest : List Msg) (s : State), s.link.inbound = m :: rest → m.kind.isRequest = true → live s = true →
    (s.mem.ownState = .joining ∨ s.mem.ownState = .filling) → headPlace s = true →
    let reply : Msg := { kind := .notReady, source := s.own, dest := .station m.source, sState := .joining,
                         sInc := s.mem.ownInc, tag := m.tag, seq := m.seq }
    exec .joiningNotReady s = .next (s.setLink { s.link with
      inbound := rest, waiters := s.link.waiters.filter (· ≠ .head)
      replies := if (viewAt s m.source).state.available then
          { s.link.replies with q := s.link.replies.q ++ [{ msg := reply }] }
        else s.link.replies })

/-! ### The duplicate filter and the holder -/

/-- A request is new without a filter entry, with another seq, or when DONE without a cached reply or for another kind,
and a repeat otherwise (R78, R80). FILTER_REPEAT answers a parked request's repeat with HOLD, discards a repeat in
progress and answers a DONE one from the cache; to a requester that is not available nothing is queued (R36); no engine sees the repeat and the filter is
not changed (R80). That a repeat which has waited at the head gets the answer of its entry as it stands now is the model's
reading (log entry 33). -/
def Obligations.RepeatsAreAnsweredByTheFilter : Prop :=
  (∀ (fl : List FilterEntry) (m : Msg),
     (filterFind fl m.source m.tag = none → filterVerdict fl m = .new) ∧
     ∀ e, filterFind fl m.source m.tag = some e →
       (e ∈ fl ∧ e.src = m.source ∧ e.tag = m.tag) ∧
       (e.seq ≠ m.seq → filterVerdict fl m = .new) ∧
       (e.state = .done none → filterVerdict fl m = .new) ∧
       (∀ c, e.state = .done (some c) → m.kind ≠ e.kind → filterVerdict fl m = .new) ∧
       (e.seq = m.seq → e.state = .inProgress true → filterVerdict fl m = .repeatHold) ∧
       (e.seq = m.seq → e.state = .inProgress false → filterVerdict fl m = .discard) ∧
       ∀ c, e.seq = m.seq → e.state = .done (some c) → m.kind = e.kind → filterVerdict fl m = .repeatReply c) ∧
  (∀ (m : Msg) (rest : List Msg) (s : State), s.link.inbound = m :: rest → m.kind.isRequest = true → serving s = true →
     let left : Link := { s.link with inbound := rest, waiters := s.link.waiters.filter (· ≠ .head) }
     let answer (k : Kind) (st : Status) (ws : List Word) : Msg :=
       { kind := k, source := s.own, dest := .station m.source, sState := shownState s.mem.ownState,
         sInc := s.mem.ownInc, tag := m.tag, seq := m.seq, status := st, f := { payload := ws } }
     (filterVerdict s.filter m = .discard → exec .filterRepeat s = .next (s.setLink left)) ∧
     (filterVerdict s.filter m = .repeatHold → headPlace s = true → (viewAt s m.source).state.available = true →
       exec .filterRepeat s = .next (s.setLink { left with
         replies := { s.link.replies with q := s.link.replies.q ++ [{ msg := answer .hold .ok [] }] } })) ∧
     (∀ c, filterVerdict s.filter m = .repeatReply c → headPlace s = true → (viewAt s m.source).state.available = true →
       s.Keyed →
       exec .filterRepeat s = .next (s.setLink { left with
         replies := { s.link.replies with q := s.link.replies.q ++ [{ msg := answer c.kind c.status c.word.toList }] } })) ∧
     (filterVerdict s.filter m = .repeatHold → headPlace s = true → (viewAt s m.source).state.available = false →
       exec .filterRepeat s = .next (s.setLink left)) ∧
     ∀ c, filterVerdict s.filter m = .repeatReply c → headPlace s = true → (viewAt s m.source).state.available = false →
       c.kind ≠ .helloRsp → s.Keyed → exec .filterRepeat s = .next (s.setLink left))

/-- A holder takes the request of its kind at the head, new to the filter, with its answer's place, for a stripe not
stale: it leaves the queue, its filter entry is written IN_PROGRESS, and its bank claim becomes due: READ a word read,
UPDATE and a direct write a merge, GATHER and FOLD a burst read, STORE a burst write (R37, R78, R108, R109, R110,
R124, R125, R126, R148). It takes the first self-addressed hand-off likewise, with no place and no filter (R75). -/
def Obligations.HolderTakesRequests : Prop :=
  ∀ (via : Via) (who : Requester) (k : Kind) (f : Fields) (left s : State), serving s = true → s.holder.work = none →
    stale s f.stripe = false → heldBack s f.stripe = false →
    ((via = .inbound ∧ headPlace s = true ∧ ∃ m rest, s.link.inbound = m :: rest ∧ m.kind = k ∧ m.f = f ∧
        filterVerdict s.filter m = .new ∧ who = .peer m.source m.tag m.seq ∧
        left = { s with
          link := { s.link with inbound := rest, waiters := s.link.waiters.filter (· ≠ .head) }
          filter := s.filter.filter (fun e => !(e.src = m.source ∧ e.tag = m.tag)) ++
            [{ src := m.source, tag := m.tag, seq := m.seq, kind := m.kind, state := .inProgress false }] }) ∨
      (via = .own ∧ ∃ n rest, s.holder.handoffs = n :: rest ∧ (slotAt s n).kind = k ∧ (slotAt s n).f = f ∧
        who = .own n ∧ left = { s with holder := { s.holder with handoffs := rest } })) →
    let taken (op : BankOp) : State := { left with
      holder := { left.holder with work := some { who := who, kind := k, f := f } }
      bank := { s.bank with holderDue := s.bank.holderDue ++ [{
        first := f.stripe * s.w + f.offset, op := op, work := .holder }] } }
    (k = .read → exec (.read via) s = .next (taken .wordRead)) ∧
    (k = .update → exec (.update via) s = .next (taken (.merge (.update f.lanes (f.payload.headD 0))))) ∧
    (k = .gather → exec (.gather via) s = .next (taken (.burstRead f.count))) ∧
    (k = .store → f.lanes = 0 → exec (.store via) s = .next (taken (.burstWrite (formsOf f.payload f.voids)))) ∧
    (k = .store → f.lanes ≠ 0 →
      exec (.directWrite via) s = .next (taken (.merge (.direct f.lanes (f.payload.headD 0))))) ∧
    (k = .fold → exec (.fold via) s = .next (taken (.burstRead s.w)))

/-- A REBUILDING holder answers a request for a stale stripe NOT_READY, makes no claim and leaves the filter as it was; it
does not take a request for the stripe whose unit is being stored, which stays at the head (R78, R108 to R110, R124 to
R126, R148, R158, R160). -/
def Obligations.StaleStripesAreNotServed : Prop :=
  (∀ (m : Msg) (rest : List Msg) (s : State) (c : Instr), serving s = true → s.holder.work = none →
     s.link.inbound = m :: rest → filterVerdict s.filter m = .new → heldBack s m.f.stripe = false → headPlace s = true →
     s.mem.ownState = .rebuilding → s.sweep.rebuildPtr ≤ m.f.stripe → (viewAt s m.source).state.available = true →
     ((m.kind, c) = (.read, .read .inbound) ∨ (m.kind, c) = (.update, .update .inbound) ∨
       (m.kind, c) = (.gather, .gather .inbound) ∨ (m.kind, c) = (.fold, .fold .inbound) ∨
       (m.f.lanes = 0 ∧ (m.kind, c) = (.store, .store .inbound)) ∨
       (m.f.lanes ≠ 0 ∧ (m.kind, c) = (.store, .directWrite .inbound))) →
     exec c s = .next (s.setLink { s.link with
       inbound := rest, waiters := s.link.waiters.filter (· ≠ .head)
       replies := { s.link.replies with q := s.link.replies.q ++ [{ msg :=
         { kind := .notReady, source := s.own, dest := .station m.source, sState := .rebuilding, sInc := s.mem.ownInc,
           tag := m.tag, seq := m.seq } }] } })) ∧
  (∀ (m : Msg) (rest : List Msg) (s : State), s.link.inbound = m :: rest → s.mem.ownState = .rebuilding →
     s.sweep.rebuildStep = .storing → s.sweep.rebuildPtr = m.f.stripe →
     exec (.read .inbound) s = .next s ∧ exec (.update .inbound) s = .next s ∧ exec (.gather .inbound) s = .next s ∧
     exec (.store .inbound) s = .next s ∧ exec (.directWrite .inbound) s = .next s ∧ exec (.fold .inbound) s = .next s)

/-- The holder's answer from the words its claim read (R109, R110, R111, R124, R125, R126, R148). -/
def Obligations.HolderAnswersFromWhatItRead : Prop :=
  ∀ (f : Fields) (old : BankWord) (ws : List BankWord),
    (goodIn f.lanes old = true →
      holderAnswer .read f [old] = { kind := .readRsp, f := { payload := [maskLanes f.lanes old.data] } }) ∧
    (goodIn f.lanes old = false → holderAnswer .read f [old] = { kind := .readRsp, status := .bad }) ∧
    (offersRepair .read f [old] = true ↔ goodIn f.lanes old = true ∧ isGood old = false) ∧
    (isGood old = true → holderAnswer .update f [old] =
      { kind := .delta, f := { payload := [old.data ^^^ mergeLanes f.lanes (f.payload.headD 0) old.data] } }) ∧
    (isGood old = false → goodIn (~~~ f.lanes) old = true → holderAnswer .update f [old] =
      { kind := .delta, status := .oldBad }) ∧
    (goodIn (~~~ f.lanes) old = false → holderAnswer .update f [old] = { kind := .delta, status := .mergeBad }) ∧
    (f.lanes = 0 → holderAnswer .store f [] = { kind := .storeRsp }) ∧
    (f.lanes ≠ 0 → goodIn (~~~ f.lanes) old = true → holderAnswer .store f [old] = { kind := .storeRsp }) ∧
    (f.lanes ≠ 0 → goodIn (~~~ f.lanes) old = false →
      holderAnswer .store f [old] = { kind := .storeRsp, status := .mergeBad }) ∧
    holderAnswer .gather f ws = { kind := .gatherRsp, f := {
      stripe := f.stripe, offset := f.offset, count := f.count,
      payload := ws.map (fun b => if isGood b then b.data else 0), voids := ws.map (fun b => !isGood b) } } ∧
    holderAnswer .fold f ws = { kind := .foldRsp, foldWord := foldUnit ws, bad := (badOffsets ws).take 4,
                                many := decide (5 ≤ (badOffsets ws).length) }

/-! ### The home -/

/-- A WRITE, RECOVER or REBUILD with no room (no table place for a new stripe, no pool place, or a table place held for an
urgent audit) is refused BUSY: it leaves the inbound queue, counts a busy refusal, and changes neither the filter nor
the home. A stale stripe at a REBUILDING home: RECOVER of purpose READ is answered LOST at once and cached, of purpose
REPAIR NOT_READY; REBUILD is answered NOT_READY (R78, R79, R86, R87, R90, R141, R158). A self-addressed request refused
BUSY puts its own slot into BACKOFF (R72, R75). That the home weighs a request
only when no urgent audit, own RECOMPUTE or release is due is log entry 5. -/
def Obligations.HomeAnswersAtOnce : Prop :=
  (∀ (m : Msg) (rest : List Msg) (s : State) (c : Instr), serving s = true → s.link.inbound = m :: rest →
     filterVerdict s.filter m = .new → headPlace s = true → stale s m.f.stripe = false →
     urgentDue s = false → recomputeDue s = false → releaseDue s = false → (viewAt s m.source).state.available = true →
     ((m.kind, c) = (.write, .write .inbound) ∨ (m.kind, c) = (.recover, .recover .inbound) ∨
       (m.kind, c) = (.rebuild, .rebuild .inbound)) →
     (32 ≤ s.home.pool.length ∨
       ((∀ e ∈ s.home.table, e.stripe ≠ m.f.stripe) ∧
         (16 ≤ s.home.table.length ∨ (s.sweep.auditPhase = .waiting ∧ ∀ e ∈ s.home.table, e.stripe ≠ s.sweep.auditPtr)))) →
     exec c s = .next { s with
       link := { s.link with
         inbound := rest, waiters := s.link.waiters.filter (· ≠ .head)
         replies := { s.link.replies with q := s.link.replies.q ++ [{ msg :=
           { kind := .busy, source := s.own, dest := .station m.source, sState := shownState s.mem.ownState,
             sInc := s.mem.ownInc, tag := m.tag, seq := m.seq } }] } }
       counters := { s.counters with busyRefusals := min (s.counters.busyRefusals + 1) 65535 } }) ∧
  (∀ (m : Msg) (rest : List Msg) (s : State), serving s = true → s.link.inbound = m :: rest →
     filterVerdict s.filter m = .new → headPlace s = true → urgentDue s = false → recomputeDue s = false →
     s.mem.ownState = .rebuilding → s.sweep.rebuildPtr ≤ m.f.stripe → (viewAt s m.source).state.available = true →
     let answer (k : Kind) (st : Status) : Link := { s.link with
       inbound := rest, waiters := s.link.waiters.filter (· ≠ .head)
       replies := { s.link.replies with q := s.link.replies.q ++ [{ msg :=
         { kind := k, source := s.own, dest := .station m.source, sState := .rebuilding, sInc := s.mem.ownInc,
           tag := m.tag, seq := m.seq, status := st } }] } }
     (m.kind = .recover → m.f.purpose = .repair → exec (.recover .inbound) s = .next (s.setLink (answer .notReady .ok))) ∧
     (m.kind = .rebuild → exec (.rebuild .inbound) s = .next (s.setLink (answer .notReady .ok))) ∧
     (m.kind = .recover → m.f.purpose = .read → exec (.recover .inbound) s = .next { s with
       link := answer .recoverRsp .lost
       filter := s.filter.filter (fun e => !(e.src = m.source ∧ e.tag = m.tag)) ++
         [{ src := m.source, tag := m.tag, seq := m.seq, kind := .recover,
            state := .done (some { kind := .recoverRsp, status := .lost, word := none }) }] })) ∧
  (∀ (n : Nat) (rest : List Nat) (s : State) (c : Instr), serving s = true → s.home.handoffs = n :: rest →
     (slotAt s n).inFlight = true → stale s (slotAt s n).f.stripe = false → urgentDue s = false →
     recomputeDue s = false → releaseDue s = false → refusedBusy s (slotAt s n).f.stripe = true →
     (((slotAt s n).kind, c) = (.write, .write .own) ∨ ((slotAt s n).kind, c) = (.recover, .recover .own)) →
     let k := min ((slotAt s n).busyCount + 1) 8
     exec c s = .next { s with
       home := { s.home with handoffs := rest }
       tu := { s.tu with slots := s.tu.slots.set n { (slotAt s n).turned .backoff with
         attempts := 0, busyCount := k, backoff := some (5 * k) } }
       counters := { s.counters with busyRefusals := min (s.counters.busyRefusals + 1) 65535 } })

/-- A RECOVER or REBUILD that finds room is parked at the tail of its stripe's list with HOLD, its filter entry
IN_PROGRESS and parked, an entry being created for a stripe that has none (R79, R83, R84, R89). A self-addressed RECOVER
is parked likewise: its own slot is HELD with no timer, and no filter sees it (R75). -/
def Obligations.HomeParksRecoversAndRebuilds : Prop :=
  (∀ (n : Nat) (rest : List Nat) (s : State), serving s = true → s.home.handoffs = n :: rest →
     (slotAt s n).kind = .recover → (slotAt s n).inFlight = true → stale s (slotAt s n).f.stripe = false →
     urgentDue s = false → recomputeDue s = false → refusedBusy s (slotAt s n).f.stripe = false →
     let f := (slotAt s n).f
     ∃ t, exec (.recover .own) s = .next t ∧
       t.home.pool = s.home.pool ++ [{
         stripe := f.stripe, kind := .recover, who := .own n, position := f.position, offset := f.offset
         lanes := f.lanes, purpose := f.purpose, data := f.payload.headD 0, use := .waitTail }] ∧
       t.home.hasEntry f.stripe = true ∧ t.home.handoffs = rest ∧
       t.tu = { s.tu with slots := s.tu.slots.set n { (slotAt s n).turned .held with attempts := 0 } } ∧
       t = { s with home := t.home, tu := t.tu }) ∧
  ∀ (m : Msg) (rest : List Msg) (s : State) (c : Instr) (k : WorkKind), serving s = true → s.link.inbound = m :: rest →
    filterVerdict s.filter m = .new → headPlace s = true → stale s m.f.stripe = false →
    urgentDue s = false → recomputeDue s = false → refusedBusy s m.f.stripe = false →
    (viewAt s m.source).state.available = true →
    ((m.kind = .recover ∧ c = .recover .inbound ∧ k = .recover) ∨
      (m.kind = .rebuild ∧ c = .rebuild .inbound ∧ k = .rebuild)) →
    ∃ t, exec c s = .next t ∧
      t.home.pool = s.home.pool ++ [{
        stripe := m.f.stripe, kind := k, who := .peer m.source m.tag m.seq, position := m.f.position,
        offset := m.f.offset, lanes := m.f.lanes, purpose := m.f.purpose, data := m.f.payload.headD 0, use := .waitTail }] ∧
      t.home.hasEntry m.f.stripe = true ∧
      t.filter = s.filter.filter (fun e => !(e.src = m.source ∧ e.tag = m.tag)) ++
        [{ src := m.source, tag := m.tag, seq := m.seq, kind := m.kind, state := .inProgress true }] ∧
      t.link.inbound = rest ∧
      t.link.replies.q = s.link.replies.q ++ [{ msg :=
        { kind := .hold, source := s.own, dest := .station m.source, sState := shownState s.mem.ownState,
          sInc := s.mem.ownInc, tag := m.tag, seq := m.seq } }] ∧
      t.link.requests = s.link.requests ∧ t.link.notices = s.link.notices ∧ t.mem = s.mem ∧ t.tu = s.tu ∧
      t.holder = s.holder ∧ t.sweep = s.sweep ∧ t.port = s.port ∧ t.counters = s.counters ∧ t.causes = s.causes ∧
      t.bank = s.bank ∧ sameRecord s t

/-- A WRITE that finds room, an entry with nothing before it, its holder available and a slot at once is issued as a
member write: an UPDATE with the write's word goes to the holder, or a forwarded STORE when the stripe is stale here,
and no HOLD is sent (R78, R88, R91, R97). A self-addressed WRITE is issued likewise (R75). -/
def Obligations.WriteIssuesMemberWrite : Prop :=
  (∀ (h : Nat) (rest : List Nat) (n : Nat) (s : State), serving s = true → s.home.handoffs = h :: rest →
     (slotAt s h).kind = .write → (slotAt s h).inFlight = true → urgentDue s = false → recomputeDue s = false →
     releaseDue s = false →
     let f := (slotAt s h).f
     refusedBusy s f.stripe = false → entryOccupied s f.stripe = false → holderOf s.n f.stripe f.position ≠ s.own →
     (viewAt s (holderOf s.n f.stripe f.position)).state.available = true →
     s.tu.asks = [] → s.tu.slots.length = 8 → n < 8 → (slotAt s n).state = .free →
     (∀ u, u < n → (slotAt s u).state ≠ .free) →
     let sent : Fields := {
       stripe := f.stripe, position := f.position, offset := f.offset, lanes := f.lanes, payload := [f.payload.headD 0]
       count := if stale s f.stripe then 1 else 0, voids := if stale s f.stripe then [false] else [] }
     let kind : Kind := if stale s f.stripe then .store else .update
     ∃ t, exec (.write .own) s = .next t ∧
       t.home.pool = s.home.pool ++ [{
         stripe := f.stripe, kind := .write, who := .own h, position := f.position, offset := f.offset
         lanes := f.lanes, purpose := f.purpose, data := f.payload.headD 0, use := .member n }] ∧
       t.home.hasEntry f.stripe = true ∧ t.home.handoffs = rest ∧ slotAt t h = slotAt s h ∧
       (slotAt t n).state = .queued ∧ (slotAt t n).owner = some (.member f.stripe) ∧ (slotAt t n).kind = kind ∧
       (slotAt t n).dest = holderOf s.n f.stripe f.position ∧ (slotAt t n).f = sent ∧
       (∃ q, t.link.requests.q = s.link.requests.q ++ [q] ∧ q.msg.tag = n ∧ q.msg.kind = kind ∧
         q.msg.dest = .station (holderOf s.n f.stripe f.position) ∧ q.msg.f = sent) ∧
       t.link.inbound = s.link.inbound ∧ t.link.replies = s.link.replies ∧ t.filter = s.filter ∧ t.mem = s.mem ∧
       t.holder = s.holder ∧ t.sweep = s.sweep ∧ t.port = s.port ∧ t.counters = s.counters ∧ t.bank = s.bank ∧
       sameRecord s t) ∧
  ∀ (m : Msg) (rest : List Msg) (n : Nat) (s : State), serving s = true → s.link.inbound = m :: rest → m.kind = .write →
    filterVerdict s.filter m = .new → urgentDue s = false → recomputeDue s = false → releaseDue s = false →
    refusedBusy s m.f.stripe = false → entryOccupied s m.f.stripe = false →
    holderOf s.n m.f.stripe m.f.position ≠ s.own →
    (viewAt s (holderOf s.n m.f.stripe m.f.position)).state.available = true →
    s.tu.asks = [] → s.tu.slots.length = 8 → n < 8 → (slotAt s n).state = .free →
    (∀ u, u < n → (slotAt s u).state ≠ .free) →
    ∃ t, exec (.write .inbound) s = .next t ∧
      t.home.pool = s.home.pool ++ [{
        stripe := m.f.stripe, kind := .write, who := .peer m.source m.tag m.seq, position := m.f.position,
        offset := m.f.offset, lanes := m.f.lanes, purpose := m.f.purpose, data := m.f.payload.headD 0, use := .member n }] ∧
      t.home.hasEntry m.f.stripe = true ∧
      (slotAt t n).state = .queued ∧ (slotAt t n).owner = some (.member m.f.stripe) ∧
      (slotAt t n).kind = (if stale s m.f.stripe then .store else .update) ∧
      (slotAt t n).dest = holderOf s.n m.f.stripe m.f.position ∧
      (slotAt t n).f = { stripe := m.f.stripe, position := m.f.position, offset := m.f.offset,
                         count := if stale s m.f.stripe then 1 else 0, lanes := m.f.lanes,
                         payload := [m.f.payload.headD 0], voids := if stale s m.f.stripe then [false] else [] } ∧
      (∃ q, t.link.requests.q = s.link.requests.q ++ [q] ∧ q.msg.tag = n ∧ q.msg.kind = (slotAt t n).kind ∧
        q.msg.dest = .station (slotAt t n).dest ∧ q.msg.f = (slotAt t n).f) ∧
      t.link.inbound = rest ∧ t.link.replies = s.link.replies ∧ t.mem = s.mem ∧ t.holder = s.holder ∧
      t.sweep = s.sweep ∧ t.port = s.port ∧ t.counters = s.counters ∧ t.causes = s.causes ∧ t.bank = s.bank ∧
      sameRecord s t

/-- A WRITE behind other work of its stripe is parked at the tail with HOLD; one whose list is empty and whose holder is
unavailable is parked as a DEGRADED_WRITE, but for a stripe stale here, where it is answered LOST at once (R79, R88,
R97); that a WRITE behind other work is parked before its holder is looked at, for a stale stripe too, is the model's
reading (log entry 15). A self-addressed WRITE goes the same ways: its own slot is HELD with no timer, or its entry
finishes with write fault LOST (R75, R182, R184). -/
def Obligations.WriteIsParkedOrDegraded : Prop :=
  (∀ (n : Nat) (rest : List Nat) (s : State), serving s = true → s.home.handoffs = n :: rest →
     (slotAt s n).kind = .write → (slotAt s n).inFlight = true → urgentDue s = false → recomputeDue s = false →
     releaseDue s = false →
     let f := (slotAt s n).f
     refusedBusy s f.stripe = false →
     let occupied := entryOccupied s f.stripe = true
     let gone := reachable s (holderOf s.n f.stripe f.position) = false
     let parked (k : WorkKind) : Prop := ∃ t, exec (.write .own) s = .next t ∧
       t.home.pool = s.home.pool ++ [{
         stripe := f.stripe, kind := k, who := .own n, position := f.position, offset := f.offset, lanes := f.lanes
         purpose := f.purpose, data := f.payload.headD 0, use := .waitTail }] ∧
       t.home.handoffs = rest ∧
       t.tu = { s.tu with slots := s.tu.slots.set n { (slotAt s n).turned .held with attempts := 0 } } ∧
       t = { s with home := t.home, tu := t.tu }
     (occupied → parked .write) ∧
     (¬ occupied → gone → stale s f.stripe = false → parked .degradedWrite) ∧
     (¬ occupied → ¬ gone → slotAtOnce s = false → parked .write) ∧
     (∀ addr e, ¬ occupied → gone → stale s f.stripe = true → (slotAt s n).owner = some (.port addr) →
       startedEntry s addr = some e → e.isWrite = true → n < s.tu.slots.length →
       ∃ t, exec (.write .own) s = .next t ∧ t.home = { s.home with handoffs := rest } ∧ SlotFreed t n ∧
         t.port = { entryLeft s e.addr with firstFault := s.port.firstFault <|> some (e.addr, .lost) } ∧
         t.counters = { s.counters with writeFaults := min (s.counters.writeFaults + 1) 65535 } ∧
         t.causes = { s.causes with fault := true } ∧ t.mem = s.mem ∧ t.filter = s.filter ∧ t.holder = s.holder ∧
         t.bank = s.bank ∧ sameRecord s t)) ∧
  ∀ (m : Msg) (rest : List Msg) (s : State), serving s = true → s.link.inbound = m :: rest → m.kind = .write →
    filterVerdict s.filter m = .new → headPlace s = true → urgentDue s = false → recomputeDue s = false →
    releaseDue s = false → refusedBusy s m.f.stripe = false → (viewAt s m.source).state.available = true →
    let occupied := entryOccupied s m.f.stripe = true
    let gone := reachable s (holderOf s.n m.f.stripe m.f.position) = false
    let parked (k : WorkKind) : Prop := ∃ t, exec (.write .inbound) s = .next t ∧
      t.home.pool = s.home.pool ++ [{
        stripe := m.f.stripe, kind := k, who := .peer m.source m.tag m.seq, position := m.f.position,
        offset := m.f.offset, lanes := m.f.lanes, purpose := m.f.purpose, data := m.f.payload.headD 0, use := .waitTail }] ∧
      t.filter = s.filter.filter (fun e => !(e.src = m.source ∧ e.tag = m.tag)) ++
        [{ src := m.source, tag := m.tag, seq := m.seq, kind := .write, state := .inProgress true }] ∧
      t.link.inbound = rest ∧
      (∃ q, t.link.replies.q = s.link.replies.q ++ [q] ∧ q.msg.kind = .hold ∧ q.msg.dest = .station m.source) ∧
      t.tu = s.tu ∧ t.mem = s.mem ∧ t.holder = s.holder ∧ t.bank = s.bank ∧ t.port = s.port ∧ t.counters = s.counters
    (occupied → parked .write) ∧
    (¬ occupied → gone → stale s m.f.stripe = false → parked .degradedWrite) ∧
    (¬ occupied → ¬ gone → slotAtOnce s = false → parked .write) ∧
    (¬ occupied → gone → stale s m.f.stripe = true → ∃ t, exec (.write .inbound) s = .next t ∧ t.home = s.home ∧
      t.link.inbound = rest ∧
      (∃ q, t.link.replies.q = s.link.replies.q ++ [q] ∧ q.msg.kind = .writeRsp ∧ q.msg.status = .lost ∧
        q.msg.dest = .station m.source) ∧
      t.tu = s.tu ∧ t.mem = s.mem ∧ t.holder = s.holder ∧ t.bank = s.bank ∧ t.port = s.port ∧ t.counters = s.counters)

/-- MEMBER_WRITE_RELEASE, with a slot at once, releases the releasable WRITE with the earliest park order: it becomes a
member write in the FREE slot with the lowest tag, its filter entry no longer parked (R79, R91). While the urgent audit or
the own RECOMPUTE can be admitted, nothing is released (R147, R162). That the release is a step of its own, and waits
for the admission even where it was possible first, is log entry 5. -/
def Obligations.OldestParkedWriteIsReleased : Prop :=
  (∀ s : State, urgentDue s = true ∨ recomputeDue s = true → exec .memberWriteRelease s = .next s) ∧
  ∀ (p : Place) (n : Nat) (s : State), s.home.releaseCandidate = some p → s.tu.asks = [] → s.tu.slots.length = 8 →
    n < 8 → (slotAt s n).state = .free → (∀ u, u < n → (slotAt s u).state ≠ .free) →
    holderOf s.n p.stripe p.position ≠ s.own → (viewAt s (holderOf s.n p.stripe p.position)).state.available = true →
    urgentDue s = false → recomputeDue s = false →
    ∃ t, exec .memberWriteRelease s = .next t ∧
      t.home.pool = s.home.pool.eraseP s.home.releaseTest ++ [{ p with use := .member n }] ∧
      t.filter = (filterPark p.who false s).filter ∧
      (slotAt t n).state = .queued ∧ (slotAt t n).owner = some (.member p.stripe) ∧
      (slotAt t n).kind = (if stale s p.stripe then .store else .update) ∧
      (slotAt t n).dest = holderOf s.n p.stripe p.position ∧ (slotAt t n).f.payload = [p.data] ∧
      (slotAt t n).f.lanes = p.lanes ∧ (slotAt t n).f.offset = p.offset ∧ (slotAt t n).f.stripe = p.stripe ∧
      t.link.replies = s.link.replies ∧ t.link.inbound = s.link.inbound ∧ t.mem = s.mem ∧ t.holder = s.holder ∧
      t.port = s.port ∧ t.counters = s.counters ∧ t.bank = s.bank ∧ sameRecord s t

/-- The first wait item of a stripe is its first conversion; with none, the urgent audit, though it was admitted before the
conversions made since; with neither, the first item of the tail (R84, R147, R157). EXCLUSIVE_OP_START starts the head of
the first ready entry in the free accumulator with the lowest number: the accumulator holds W zero words with no flag, a
wait item's place is freed, a recompute list becomes absent, and the operation's record is written (R85, R93, R94, R95).
Its first asks and parity reads: a RECOVER or MERGE_WRITE gathers its offset from every other position and reads the
parity word, a DEGRADED_WRITE likewise but for the parity read of a full write, a REBUILD gathers the other units and
reads the parity unit, an AUDIT folds every unit and reads the parity unit, a RECOMPUTE gathers from every position the
unit, or the range from its lowest to its highest listed offset (R117, R129, R133, R149, R168). While the urgent audit or
the own RECOMPUTE can be admitted, none starts (R147, R162; even one possible first: log entry 5). That the accumulator is
the one with the lowest number is the model's choice (log entry 41). That a RECOMPUTE reads no
parity, which R17's table lists for it, is the model's choice where the spec differs with itself (log entry 31). -/
def Obligations.ReadyEntryStarts : Prop :=
  (∀ (st : Nat) (a b : List Place) (p : Place) (s : State), s.home.pool = a ++ p :: b → p.stripe = st →
     (∀ x ∈ a, x.stripe = st → x.use ≠ p.use) →
     (p.use = .waitHead ∨
      (p.use = .waitUrgent ∧ ∀ x ∈ s.home.pool, x.stripe = st → x.use ≠ .waitHead) ∨
      (p.use = .waitTail ∧ ∀ x ∈ s.home.pool, x.stripe = st → x.use ≠ .waitHead ∧ x.use ≠ .waitUrgent)) →
     s.home.firstWait st = some p) ∧
  (∀ s : State, urgentDue s = true ∨ recomputeDue s = true → exec .exclusiveOpStart s = .next s) ∧
  ∀ (st i : Nat) (queue : List Nat) (e : Entry) (s : State), s.home.accQueue = st :: queue → s.home.entry st = some e →
    urgentDue s = false → recomputeDue s = false →
    s.home.accs.length = 2 → i < 2 → (accAt s i).used = false → (∀ j, j < i → (accAt s j).used = true) →
    let all := List.range s.d
    let gather (o n k : Nat) : Ask :=
      { owner := .op st, kind := .gather, dest := holderOf s.n st k, f := { stripe := st, position := k, offset := o, count := n } }
    let fold (k : Nat) : Ask :=
      { owner := .op st, kind := .fold, dest := holderOf s.n st k, f := { stripe := st, position := k } }
    let read (o : Nat) (x : BankOp) : Claim := { first := st * s.w + o, op := x, work := .parityRead st o }
    let begun (t : State) (op : Op) (step : OpStep) (asks : List Ask) (claims : List Claim) : Prop :=
      op.step = step ∧ op.toAsk = asks.drop 1 ∧ op.outstanding = min asks.length 1 ∧ op.claims = claims.length ∧
      op.results = List.replicate s.d .awaited ∧ t.tu = { s.tu with asks := s.tu.asks ++ asks.take 1 } ∧
      t.bank = { s.bank with homeDue := s.bank.homeDue ++ claims }
    let unasked := ∀ a ∈ s.tu.asks, a.owner ≠ .op st
    (∀ p, e.recompute = none → s.home.firstWait st = some p → ∃ t op, exec .exclusiveOpStart s = .next t ∧
      opAt t st = some op ∧ op.kind = p.kind.opKind ∧ op.who = p.who ∧ op.acc = i ∧ op.position = p.position ∧
      op.offset = p.offset ∧ op.lanes = p.lanes ∧ op.purpose = p.purpose ∧ op.data = p.data ∧
      t.home.pool = s.home.pool.eraseP (fun x => x.stripe == st && x.use == p.use) ∧
      accAt t i = { used := true, words := List.replicate s.w 0, flags := List.replicate s.w false } ∧
      t.mem = s.mem ∧ t.link = s.link ∧ t.holder = s.holder ∧ t.port = s.port ∧ t.counters = s.counters ∧ sameRecord s t ∧
      (unasked →
        let others := all.filter (· != p.position)
        (p.kind = .recover ∨ p.kind = .mergeWrite →
          begun t op .gather (others.map (gather p.offset 1)) [read p.offset .wordRead]) ∧
        (p.kind = .degradedWrite →
          begun t op .gather (others.map (gather p.offset 1)) (if p.lanes = 0xF#4 then [] else [read p.offset .wordRead])) ∧
        (p.kind = .rebuild → begun t op .gather (others.map (gather 0 s.w)) [read 0 (.burstRead s.w)]) ∧
        (p.kind = .audit → begun t op .fold (all.map fold) [read 0 (.burstRead s.w)]) ∧
        (p.kind = .recomputeWhole → begun t op .gather (all.map (gather 0 s.w)) []))) ∧
    (∀ l, e.recompute = some l → ∃ t op, exec .exclusiveOpStart s = .next t ∧ opAt t st = some op ∧
      op.kind = .recompute ∧ op.who = .internalList ∧ op.list = l ∧ op.acc = i ∧
      (t.home.entry st).map (·.recompute) = some none ∧ t.home.pool = s.home.pool ∧
      accAt t i = { used := true, words := List.replicate s.w 0, flags := List.replicate s.w false } ∧
      t.mem = s.mem ∧ t.link = s.link ∧ t.holder = s.holder ∧ t.port = s.port ∧ t.counters = s.counters ∧ sameRecord s t ∧
      (unasked →
        (l = .whole → begun t op .gather (all.map (gather 0 s.w)) []) ∧
        ∀ offsets low high, l = .offsets offsets → low ∈ offsets → high ∈ offsets →
          (∀ x ∈ offsets, low ≤ x ∧ x ≤ high) → begun t op .gather (all.map (gather low (high + 1 - low))) []))

/-! ### Replies taken -/

/-- READ_RSP and RECOVER_RSP of a local read (R101, R102, R103, R107, R139, R182, R185): with OK the read completes with
the word's lanes; after a BAD READ with its home reachable the entry goes to its second phase and asks for a RECOVER
of purpose READ; a lost RECOVER completes it with ERR and 0 and counts a lost word. The slot is FREE. WRITE_RSP,
STORE_RSP and NOT_READY of a local write (R104, R105, R106, R182, R184): OK finishes it without fault; LOST, and
MERGE_BAD of the direct write, finish it with write fault LOST; NOT_READY of the WRITE with its holder reachable asks
for the direct write. The slot is FREE. That a write leaves LDO and LERR as they were is the model's choice (log entry
20). -/
def Obligations.LocalEntriesGoOn : Prop :=
  (∀ (m : Msg) (rest : List Msg) (e : LocalEntry) (s : State), Takes s m rest (.port e.addr) →
     startedEntry s e.addr = some e → e.isWrite = false →
     let done (t : State) (word : Word) (err : Bool) : Prop :=
       t.port = { s.port with ack := true, ldo := word, lerr := err,
                              entries := s.port.entries.eraseP (fun x => x.addr == e.addr && x.started) } ∧
       SlotFreed t m.tag ∧ t.link.inbox = rest ∧ t.tu.asks = s.tu.asks ∧ t.mem = s.mem ∧ t.holder = s.holder ∧
       t.causes = s.causes ∧ t.bank = s.bank ∧ sameRecord s t
     (∀ w, m.kind = .readRsp → m.status = .ok → m.f.payload = [w] → ∃ t, exec .readRsp s = .next t ∧
       done t (maskLanes e.lanes w) false ∧ t.counters = s.counters) ∧
     (∀ w, m.kind = .recoverRsp → m.status = .ok → m.f.payload = [w] → ∃ t, exec .recoverRsp s = .next t ∧
       done t (maskLanes e.lanes w) false ∧ t.counters = s.counters) ∧
     (m.kind = .recoverRsp → m.status = .lost → e.phase = .second → ∃ t, exec .recoverRsp s = .next t ∧
       done t 0 true ∧ t.counters = { s.counters with lost := min (s.counters.lost + 1) 65535 }) ∧
     (m.kind = .readRsp → m.status = .bad → e.phase = .first → reachable s (homeOf s.n e.stripe) = true →
       ∃ t, exec .readRsp s = .next t ∧ SlotFreed t m.tag ∧
         t.tu.asks = s.tu.asks ++ [{
           owner := .port e.addr, kind := .recover, dest := homeOf s.n e.stripe
           f := { stripe := e.stripe, position := e.position, offset := e.offset, lanes := e.lanes, purpose := .read } }] ∧
         t.port = { s.port with entries := s.port.entries.map fun x =>
           if x.addr = e.addr ∧ x.started = true then { x with phase := .second } else x } ∧
         t.counters = s.counters ∧ t.mem = s.mem ∧ t.bank = s.bank ∧ sameRecord s t)) ∧
  (∀ (m : Msg) (rest : List Msg) (e : LocalEntry) (s : State), Takes s m rest (.port e.addr) →
     startedEntry s e.addr = some e → e.isWrite = true →
     let left : Port := { s.port with entries := s.port.entries.eraseP (fun x => x.addr == e.addr && x.started) }
     let fine (t : State) : Prop := t.port = left ∧ t.counters = s.counters ∧ t.causes = s.causes
     let lost (t : State) : Prop := t.port = { left with firstFault := s.port.firstFault <|> some (e.addr, .lost) } ∧
       t.counters = { s.counters with writeFaults := min (s.counters.writeFaults + 1) 65535 } ∧
       t.causes = { s.causes with fault := true }
     let freed (t : State) : Prop := SlotFreed t m.tag ∧ t.link.inbox = rest ∧ t.mem = s.mem ∧ t.holder = s.holder ∧
       t.bank = s.bank ∧ sameRecord s t
     (m.kind = .writeRsp → ∃ t, exec .writeRsp s = .next t ∧ freed t ∧ t.tu.asks = s.tu.asks ∧
       if m.status = .ok then fine t else lost t) ∧
     (m.kind = .storeRsp → ∃ t, exec .storeRsp s = .next t ∧ freed t ∧ t.tu.asks = s.tu.asks ∧
       if m.status = .ok then fine t else lost t) ∧
     (m.kind = .notReady → e.phase = .first → reachable s (holderOf s.n e.stripe e.position) = true →
       ∃ t, exec .notReady s = .next t ∧ freed t ∧ t.counters = s.counters ∧ t.causes = s.causes ∧
         t.tu.asks = s.tu.asks ++ [{
           owner := .port e.addr, kind := .store, dest := holderOf s.n e.stripe e.position
           f := { stripe := e.stripe, position := e.position, offset := e.offset, count := 1, lanes := e.lanes,
                  payload := [e.data], voids := [false] } }]))

/-- DELTA of a member write (R91, R92, R113, R115): OK makes the parity merge claim due and the place an application
pending; OLD_BAD adds the offset to the recompute list and keeps the write as an answer record; MERGE_BAD makes it a
MERGE_WRITE at the end of the head section, NOT_READY and UNAVAILABLE a DEGRADED_WRITE there; HOLD goes to the requester of
each of these last, and a write without one frees its place (R98). The claim of a DELTA application, when it completes:
over a good parity word, parity XOR delta is written, the place freed and WRITE_RSP(OK) sent; over a bad one nothing is
written, the offset joins the recompute list, and the write is kept as an answer record with HOLD (R113, R114). A forwarded
STORE ends with WRITE_RSP, OK for STORE_RSP(OK) and LOST otherwise, its place freed (R97). The slot is FREE. That the claim
which completes answers the oldest pending application of its stripe, whatever its offset, is the model's reading of R19
(log entry 24); that a place is freed though its WRITE_RSP is held for a reply-queue place is log entry 40. -/
def Obligations.DeltasReachParity : Prop :=
  (∀ (m : Msg) (rest : List Msg) (p : Place) (s : State), Takes s m rest (.member p.stripe) →
    s.home.pool.find? (isMemberIn p.stripe m.tag) = some p →
    let others := s.home.pool.eraseP (isMemberIn p.stripe m.tag)
    let kept (t : State) : Prop := SlotFreed t m.tag ∧ t.link.inbox = rest ∧ t.mem = s.mem ∧ t.holder = s.holder ∧
      t.sweep = s.sweep ∧ sameRecord s t
    let becomes (t : State) (x : Place) : Prop := kept t ∧ t.bank = s.bank ∧ t.port = s.port ∧ t.counters = s.counters ∧
      (p.who ≠ .nobody → t.home.pool = others ++ [x] ∧ HoldTold s t p.who) ∧
      (p.who = .nobody → t.home.pool = others ∧ t.link.replies = s.link.replies ∧ t.filter = s.filter)
    ((slotAt s m.tag).kind = .update →
      (∀ d, m.kind = .delta → m.status = .ok → m.f.payload = [d] → ∃ t, exec .delta s = .next t ∧ kept t ∧
        t.home.pool = others ++ [{ p with use := .applying }] ∧
        t.bank = { s.bank with homeDue := s.bank.homeDue ++ [{
          first := p.stripe * s.w + p.offset, op := .merge (.delta d), work := .delta p.stripe p.offset }] } ∧
        t.filter = s.filter ∧ t.port = s.port ∧ t.counters = s.counters ∧ t.link.replies = s.link.replies) ∧
      (m.kind = .delta → m.status = .oldBad → s.home.hasEntry p.stripe = true → ∃ t, exec .delta s = .next t ∧
        becomes t { p with use := .answer } ∧
        (∃ e, t.home.entry p.stripe = some e ∧
          e.recompute = (s.home.entry p.stripe).map (fun x => addRecompute p.offset x.recompute))) ∧
      (m.kind = .delta → m.status = .mergeBad → ∃ t, exec .delta s = .next t ∧
        becomes t { p with kind := .mergeWrite, use := .waitHead }) ∧
      (m.kind = .notReady → ∃ t, exec .notReady s = .next t ∧
        becomes t { p with kind := .degradedWrite, use := .waitHead })) ∧
    ((slotAt s m.tag).kind = .store →
      let ended (t : State) (ok : Bool) : Prop := kept t ∧ t.home.pool = others ∧ t.bank = s.bank ∧
        WriteTold s t s.counters ok p.who
      (m.kind = .storeRsp → ∃ t, exec .storeRsp s = .next t ∧ ended t (m.status == .ok)) ∧
      (m.kind = .notReady → ∃ t, exec .notReady s = .next t ∧ ended t false)) ∧
    ∀ u kind, memberOutcome p.stripe m.tag kind .unavailable u = memberOutcome p.stripe m.tag kind .notReady u) ∧
  ∀ (p : Place) (b : BusyClaim) (d : Word) (o : Nat) (s : State), s.bank.busy = some b →
    b.claim.work = .delta p.stripe o → b.claim.op = .merge (.delta d) → claimInBank s.straps b.claim = true →
    s.home.pool.find? (isApplying p.stripe) = some p → s.counters.lost ≤ 65535 →
    let others := s.home.pool.eraseP (isApplying p.stripe)
    let old := bankGet s.bank.words b.claim.first
    let kept (t : State) : Prop := t.link.inbox = s.link.inbox ∧ t.mem = s.mem ∧ t.holder = s.holder ∧ t.sweep = s.sweep ∧
      t.straps = s.straps ∧ t.enables = s.enables
    (isGood old = true → ∃ t, exec .bankClaimCompletion s = .next t ∧ kept t ∧ t.home.pool = others ∧
      t.bank = { s.bank with words := bankSet s.bank.words b.claim.first (goodWord (old.data ^^^ d)), busy := none } ∧
      WriteTold s t s.counters true p.who) ∧
    (isGood old = false → s.home.hasEntry p.stripe = true → ∃ t, exec .bankClaimCompletion s = .next t ∧ kept t ∧
      t.bank = { s.bank with busy := none } ∧ t.counters = s.counters ∧ t.port = s.port ∧
      (p.who ≠ .nobody → t.home.pool = others ++ [{ p with use := .answer }] ∧ HoldTold s t p.who) ∧
      (p.who = .nobody → t.home.pool = others ∧ t.link = s.link ∧ t.filter = s.filter) ∧
      ∃ e, t.home.entry p.stripe = some e ∧
        e.recompute = (s.home.entry p.stripe).map (fun x => addRecompute o x.recompute))

/-- GATHER_RSP, FOLD_RSP and a plain STORE's STORE_RSP of an exclusive operation: the member's result is recorded, the
gathered words go into the accumulator while gathering, the good STORE of an audit's repair counts a recovered word, and
the slot is FREE; then the operation goes on if nothing else is awaited, and otherwise waits (R85, R95, R128, R139, R149).
NOT_READY records the member unavailable, flags its words while gathering, and drops what is still listed for it;
UNAVAILABLE does the same (R85, R95, R128); that an ask already in the slot-request list stands is the model's reading of
R95 (log entry 37), that an AUDIT past its folds then stops log entry 14. REBUILD_RSP makes the burst that stores
the returned unit due, each word good or void by its flag; NOT_READY starts the 1 ms pause (R164, R165, R167). -/
def Obligations.OperationRepliesAreRecorded : Prop :=
  (∀ (m : Msg) (rest : List Msg) (st : Nat) (op : Op) (s : State), Takes s m rest (.op st) → opAt s st = some op →
     2 ≤ op.outstanding → (slotAt s m.tag).f.position < op.results.length → (slotAt s m.tag).kind.isRequest = true →
     let f := (slotAt s m.tag).f
     let recorded (t : State) (r : MemberResult) : Prop :=
       opAt t st = some { op with outstanding := op.outstanding - 1, results := op.results.set f.position r } ∧
       SlotFreed t m.tag ∧ t.link.inbox = rest ∧ t.tu.asks = s.tu.asks ∧ t.mem = s.mem ∧ t.holder = s.holder ∧
       t.port = s.port ∧ t.sweep = s.sweep ∧ t.home.pool = s.home.pool ∧ t.counters = s.counters ∧ t.bank = s.bank ∧
       sameRecord s t
     (m.kind = .gatherRsp → op.step = .gather → ∃ t, exec .gatherRsp s = .next t ∧
       recorded t (.gathered ((gatheredWords f.count m).map (·.isNone))) ∧
       (op.acc < s.home.accs.length →
         accAt t op.acc = (accAt s op.acc).contributeFrom op.list.lists f.offset (gatheredWords f.count m))) ∧
     (m.kind = .foldRsp → op.step = .fold → ∃ t, exec .foldRsp s = .next t ∧
       recorded t (.folded m.foldWord m.bad m.many) ∧ t.home.accs = s.home.accs) ∧
     (m.kind = .storeRsp → op.step = .store → ∃ t, exec .storeRsp s = .next t ∧
       opAt t st = some { op with outstanding := op.outstanding - 1 } ∧ SlotFreed t m.tag ∧ t.link.inbox = rest ∧
       t.mem = s.mem ∧ t.port = s.port ∧ t.counters = s.counters ∧ t.bank = s.bank ∧ sameRecord s t)) ∧
  (∀ (m : Msg) (rest : List Msg) (st : Nat) (op : Op) (s : State), Takes s m rest (.op st) → opAt s st = some op →
     op.acc < s.home.accs.length →
     let x := slotAt s m.tag
     let goesOn (c : Instr) (op' : Op) (u : State) : Prop := exec c s = .next (settle (opAdvance st u)) ∧
       opAt u st = some { op' with outstanding := op.outstanding - 1 } ∧
       (op'.toAsk ≠ [] ∨ 2 ≤ op.outstanding ∨ op.claims ≠ 0 → opAdvance st u = u) ∧
       SlotFreed u m.tag ∧ u.link.inbox = rest ∧ u.tu.asks = s.tu.asks ∧ u.mem = s.mem ∧ u.holder = s.holder ∧
       u.port = s.port ∧ u.sweep = s.sweep ∧ u.home.pool = s.home.pool ∧ u.bank = s.bank ∧ sameRecord s u
     let contributes (u : State) (ws : List (Option Word)) : Prop := accAt u op.acc =
       if op.step.accumulates then (accAt s op.acc).contributeFrom op.list.lists x.f.offset ws else accAt s op.acc
     let dropped : Op := { op with
       results := op.results.set x.f.position .unavailable
       step := if op.step.stopsAtOnce then .stopping else op.step
       toAsk := if op.step.stopsAtOnce then [] else op.toAsk.filter fun a => a.f.position != x.f.position }
     (x.kind = .gather → m.kind = .gatherRsp → ∃ u, goesOn .gatherRsp { op with
       results := op.results.set x.f.position (.gathered ((gatheredWords x.f.count m).map (·.isNone))) } u ∧
       contributes u (gatheredWords x.f.count m) ∧ u.counters = s.counters) ∧
     (x.kind = .fold → m.kind = .foldRsp → ∃ u, goesOn .foldRsp { op with
       results := op.results.set x.f.position (.folded m.foldWord m.bad m.many) } u ∧
       u.home.accs = s.home.accs ∧ u.counters = s.counters) ∧
     (x.kind = .store → m.kind = .storeRsp → ∃ u, goesOn .storeRsp op u ∧ u.home.accs = s.home.accs ∧
       u.counters = if op.step = .offStore ∧ x.f.voids = [false] then
         { s.counters with recovered := min (s.counters.recovered + 1) 65535 } else s.counters) ∧
     (x.kind = .gather → m.kind = .notReady → ∃ u, goesOn .notReady dropped u ∧
       contributes u (List.replicate x.f.count none) ∧ u.counters = s.counters) ∧
     (x.kind = .fold → m.kind = .notReady → op.step.accumulates = false → ∃ u, goesOn .notReady dropped u ∧
       u.home.accs = s.home.accs ∧ u.counters = s.counters) ∧
     (x.kind = .store → m.kind = .notReady → ∃ u, goesOn .notReady dropped u ∧
       u.home.accs = s.home.accs ∧ u.counters = s.counters) ∧
     (x.kind = .gather ∨ x.kind = .fold ∨ x.kind = .store →
       ∀ u, opOutcome st x.kind x.f .unavailable u = opOutcome st x.kind x.f .notReady u)) ∧
  (∀ (m : Msg) (rest : List Msg) (s : State), Takes s m rest .sweep →
     (m.kind = .rebuildRsp → ∃ t, exec .rebuildRsp s = .next t ∧ SlotFreed t m.tag ∧
       t.sweep = { s.sweep with rebuildStep := .storing } ∧
       t.bank = { s.bank with sweepDue := s.bank.sweepDue ++ [{
         first := s.sweep.rebuildPtr * s.w
         op := .burstWrite (List.zipWith (fun w v => if v then none else some w) m.f.payload m.f.voids)
         work := .unitStore }] } ∧
       t.link.inbox = rest ∧ t.mem = s.mem ∧ t.holder = s.holder ∧ t.port = s.port ∧ t.counters = s.counters ∧
       sameRecord s t) ∧
     (m.kind = .notReady → ∃ t, exec .notReady s = .next t ∧ SlotFreed t m.tag ∧
       t.sweep = { s.sweep with rebuildStep := .paused, pause := some 1000 } ∧ t.bank = s.bank ∧
       t.link.inbox = rest ∧ t.mem = s.mem ∧ t.holder = s.holder ∧ t.port = s.port ∧ t.counters = s.counters ∧
       sameRecord s t))

/-- When the last result of its gathering step is in, an exclusive operation decides by the void flags of its accumulator.
RECOVER: the gathered word is stored to the holder, or every bad member of the offset, the target and parity are made
void (R130, R131). MERGE_WRITE: the merged word to the holder with its parity, or void likewise (R118, R119).
DEGRADED_WRITE: parity as if the word had been written, or the bad members and parity void (R121, R122). RECOMPUTE:
the listed parity words, or the whole unit, each good or void by its flag (R134, R163). REBUILD: with no flag only its
reply is left; otherwise, offset after offset, the members whose word there was bad and the parity word are made void, the
other parity words written as read (R169). A member recorded unavailable is written nothing but as the target (R95,
R128). -/
def Obligations.OperationsDecideByTheirFlags : Prop :=
  ∀ (st : Nat) (op : Op) (s : State), opAt s st = some op → op.complete = true → op.step = .gather →
    (∀ a ∈ s.tu.asks, a.owner ≠ .op st) →
    let t := opAdvance st s
    let a := accAt s op.acc
    let o := op.offset
    let merged := mergeLanes op.lanes op.data (a.word o)
    let bad (k : Nat) : Bool := (op.result k).voidAt 0
    let store (form : Option Word) (k : Nat) : Ask :=
      { owner := .op st, kind := .store, dest := holderOf s.n st k
        f := { stripe := st, position := k, offset := o, count := 1, payload := [form.getD 0], voids := [form.isNone] } }
    let parity (x : Nat) (form : Option Word) : Claim :=
      { first := st * s.w + x, op := .wordWrite form, work := .parityWrite st }
    let form (x : Nat) : Option Word := if a.flag x then none else some (a.word x)
    let goesOn (ok : Bool) (data : Word) (asks : List Ask) (claims : List Claim) : Prop :=
      opAt t st = some { op with
        step := .store, ok := ok, data := data, toAsk := asks.drop 1, outstanding := min asks.length 1
        claims := claims.length } ∧
      t.tu.asks = s.tu.asks ++ asks.take 1 ∧ t.bank = { s.bank with homeDue := s.bank.homeDue ++ claims } ∧
      t.home.accs = s.home.accs ∧ t.home.pool = s.home.pool ∧ t.mem = s.mem ∧ t.link = s.link ∧ t.holder = s.holder ∧
      t.port = s.port ∧ t.sweep = s.sweep ∧ t.counters = s.counters ∧ t.causes = s.causes ∧ sameRecord s t
    (op.kind = .recover → a.flag o = false →
      goesOn true (a.word o) [store (some (a.word o)) op.position] []) ∧
    (op.kind = .recover ∨ op.kind = .mergeWrite → a.flag o = true →
      goesOn false op.data (((List.range s.d).filter fun k => k == op.position || bad k).map (store none)) [parity o none]) ∧
    (op.kind = .mergeWrite → a.flag o = false →
      goesOn true op.data [store (some merged) op.position]
        [parity o (some (a.word o ^^^ (op.parityWord 0).data ^^^ merged))]) ∧
    (op.kind = .degradedWrite → a.flag o = false →
      goesOn true op.data [] [parity o (some (if op.lanes = 0xF#4 then a.word o ^^^ op.data
        else a.word o ^^^ (op.parityWord 0).data ^^^ merged))]) ∧
    (op.kind = .degradedWrite → a.flag o = true →
      goesOn false op.data (((List.range s.d).filter bad).map (store none)) [parity o none]) ∧
    (∀ l, op.kind = .recompute → op.list = .offsets l →
      goesOn op.ok op.data [] (l.map fun x => parity x (form x))) ∧
    (op.kind = .recompute → op.list = .whole →
      goesOn op.ok op.data [] [{
        first := st * s.w, op := .burstWrite ((List.range s.w).map form), work := .parityWrite st }]) ∧
    (op.kind = .rebuild → (∀ x, x < s.w → a.flag x = false) → t = replyOp st s) ∧
    (op.kind = .rebuild → (∃ x, x < s.w ∧ a.flag x = true) →
      goesOn op.ok op.data
        (((List.range s.w).filter a.flag).flatMap fun x =>
          ((List.range s.d).filter fun k => (op.result k).voidAt x).map fun k =>
            { store none k with f := { (store none k).f with offset := x } })
        [{ first := st * s.w
           op := .burstWrite ((List.range s.w).map fun x => if a.flag x then none else some (op.parityWord x).data)
           work := .parityWrite st }]) ∧
    ∀ k x, op.results[k]? = some .unavailable → (op.result k).voidAt x = false

/-- What an AUDIT does when the results its step needs are in: no result with an unavailable member (R149, R150); clean
when no word is bad and the folds agree (R151); the whole units gathered for the resync when they do not, and then its
parity unit written in one burst, each word good or void by its flag (R154); with a word bad, the whole units of the
members with MANY gathered, and then, or at once where there is none, the first offset of the repair set: the offsets
listed, found void in those units, or bad in the parity, ascending (R152). The work of an offset is a gather of each
data word and a read of the parity word (R153). By these the one bad word, data or parity, is written from the others, two
or more are made void with the AUDIT cause, and nothing is written where all are good (R153, R156); the next offset
follows, and after the last the AUDIT ends repaired (R153). The resync is counted with the AUDIT cause after its parity
write (R154, R156). That an unavailable member met after the folds ends the audit with no result once its outstanding
slots are in is the model's reading (log entry 14). -/
def Obligations.AuditsDecideByFolds : Prop :=
  ∀ (st : Nat) (op : Op) (s : State), opAt s st = some op → op.complete = true → op.acc < s.home.accs.length →
    op.kind = .audit → (∀ a ∈ s.tu.asks, a.owner ≠ .op st) →
    let t := opAdvance st s
    let o := op.repairSet.headD 0
    let word := (accAt s op.acc).word o
    let bad := (List.range s.d).filter fun k => (op.result k).voidAt 0
    let parityGood := isGood (op.parityWord 0) = true
    let store (form : Option Word) (k : Nat) : Ask :=
      { owner := .op st, kind := .store, dest := holderOf s.n st k
        f := { stripe := st, position := k, offset := o, count := 1, payload := [form.getD 0], voids := [form.isNone] } }
    let parity (form : Option Word) : Claim :=
      { first := st * s.w + o, op := .wordWrite form, work := .parityWrite st }
    let ended (r : AuditResult) : Prop :=
      opAt t st = none ∧ accAt t op.acc = {} ∧ t.sweep = (auditEnd r s).sweep ∧ t.tu = s.tu ∧ t.bank = s.bank ∧
      t.mem = s.mem ∧ t.link = s.link ∧ t.port = s.port ∧ t.holder = s.holder ∧ sameRecord s t
    let stores (asks : List Ask) (claims : List Claim) : Prop :=
      opAt t st = some { op with
        step := .offStore, toAsk := asks.drop 1, outstanding := min asks.length 1, claims := claims.length } ∧
      t.tu.asks = s.tu.asks ++ asks.take 1 ∧ t.bank = { s.bank with homeDue := s.bank.homeDue ++ claims } ∧
      t.sweep = s.sweep ∧ t.counters = s.counters ∧ t.mem = s.mem ∧ t.link = s.link ∧ sameRecord s t
    let clear := (∀ r ∈ op.results, r ≠ .unavailable ∧ r.foldBad = false) ∧ op.parityBad = []
    let many := (List.range s.d).filter fun k => (op.result k).foldMany
    let gathers (o count : Nat) (ks : List Nat) : List Ask := ks.map fun k =>
      { owner := .op st, kind := .gather, dest := holderOf s.n st k
        f := { stripe := st, position := k, offset := o, count := count } }
    let fresh : Accum := { used := true, words := List.replicate s.w 0, flags := List.replicate s.w false }
    let works (l : List Nat) : Prop := t.counters = s.counters ∧ t.causes = s.causes ∧ (l = [] → ended .repaired) ∧
      ∀ o, l.head? = some o →
        opAt t st = some { op with
          step := .offGather, repairSet := l, results := List.replicate s.d .awaited, parity := []
          toAsk := (gathers o 1 (List.range s.d)).drop 1, outstanding := min s.d 1, claims := 1 } ∧
        t.tu.asks = s.tu.asks ++ (gathers o 1 (List.range s.d)).take 1 ∧ accAt t op.acc = fresh ∧
        t.bank = { s.bank with homeDue := s.bank.homeDue ++ [{
          first := st * s.w + o, op := .wordRead, work := .parityRead st o }] } ∧
        t.sweep = s.sweep ∧ t.mem = s.mem ∧ t.link = s.link ∧ sameRecord s t
    let foundBad (o : Nat) : Prop := o ∈ op.parityBad ∨ ∃ r ∈ op.results,
      (∃ w l, r = .folded w l false ∧ o ∈ l) ∨ ∃ v, r = .gathered v ∧ v[o]? = some true
    let repairs : Prop := ∃ l : List Nat, l.Pairwise (· < ·) ∧ (∀ o, o ∈ l ↔ o < s.w ∧ foundBad o) ∧ works l
    let agree := foldUnit op.parity = xorWords (op.results.map (·.foldValue))
    (op.step = .fold → (∃ r ∈ op.results, r = .unavailable) → ended .noResult ∧ t.counters = s.counters ∧ t.causes = s.causes) ∧
    (op.step = .fold → clear → agree → ended .clean ∧ t.counters = s.counters ∧ t.causes = s.causes) ∧
    (op.step = .fold → clear → ¬ agree →
      opAt t st = some { op with
        step := .syncGather, results := List.replicate s.d .awaited, toAsk := (gathers 0 s.w (List.range s.d)).drop 1
        outstanding := min s.d 1 } ∧
      t.tu.asks = s.tu.asks ++ (gathers 0 s.w (List.range s.d)).take 1 ∧ accAt t op.acc = fresh ∧
      t.bank = s.bank ∧ t.sweep = s.sweep ∧ t.counters = s.counters ∧ t.causes = s.causes ∧ sameRecord s t) ∧
    (op.step = .fold → (∀ r ∈ op.results, r ≠ .unavailable) → (∃ r ∈ op.results, r.foldBad = true) ∨ op.parityBad ≠ [] →
      (many = [] → repairs) ∧
      (many ≠ [] → opAt t st = some { op with
          step := .many, toAsk := (gathers 0 s.w many).drop 1, outstanding := 1 } ∧
        t.tu.asks = s.tu.asks ++ (gathers 0 s.w many).take 1 ∧ t.home.accs = s.home.accs ∧
        t.bank = s.bank ∧ t.sweep = s.sweep ∧ t.counters = s.counters ∧ t.causes = s.causes ∧ sameRecord s t)) ∧
    (op.step = .many → repairs) ∧
    (op.step = .offGather → bad = [] → parityGood → works (op.repairSet.drop 1)) ∧
    (∀ k, op.step = .offGather → bad = [k] → parityGood → stores [store (some word) k] [] ∧ t.causes = s.causes) ∧
    (op.step = .offGather → bad = [] → ¬ parityGood → stores [] [parity (some word)] ∧ t.causes = s.causes) ∧
    (op.step = .offGather → (2 ≤ bad.length ∨ (bad.length = 1 ∧ ¬ parityGood)) →
      stores (bad.map (store none)) [parity none] ∧ t.causes = { s.causes with audit := true }) ∧
    (op.step = .offStore → works (op.repairSet.drop 1)) ∧
    (op.step = .syncGather →
      opAt t st = some { op with step := .syncWrite, claims := 1 } ∧ t.tu = s.tu ∧
      t.bank = { s.bank with homeDue := s.bank.homeDue ++ [{
        first := st * s.w
        op := .burstWrite ((List.range s.w).map fun o =>
          if (accAt s op.acc).flag o then none else some ((accAt s op.acc).word o))
        work := .parityWrite st }] } ∧
      t.home.accs = s.home.accs ∧ t.sweep = s.sweep ∧ t.counters = s.counters ∧ t.causes = s.causes ∧ sameRecord s t) ∧
    (op.step = .syncWrite → ended .resync ∧
      t.counters = { s.counters with resyncs := min (s.counters.resyncs + 1) 65535 } ∧
      t.causes = { s.causes with audit := true }) ∧
    (op.step = .stopping → ended .noResult ∧ t.counters = s.counters ∧ t.causes = s.causes)

/-- When the writes of an exclusive operation for a peer are done, its reply is queued in a free place and cached, a
recovered word is counted for a RECOVER or MERGE_WRITE that decided OK, the accumulator is freed, and the operation is
absent; to a peer the view does not admit, nothing is queued (R36, R79, R96, R118 to R122, R130, R131, R139). The own
RECOMPUTE of a rebuild moves the rebuild pointer instead (R163). A REBUILD's reply carries its words, 0 and void where
flagged, and the operation waits for its disposal (R96, R170). An own slot ends with the reply, its read completing or its
write finishing (R75, R103, R182); with no requester nothing is sent (R98). A listed RECOMPUTE sends the WRITE_RSP of each
answer record in the order recorded, OK when the write's own word was gathered good, and frees the places (R93, R116). -/
def Obligations.OperationsEndWithTheirReply : Prop :=
  ∀ (st : Nat) (op : Op) (s : State), opAt s st = some op → op.complete = true → op.step = .store →
    let t := opAdvance st s
    let recovered := if op.kind ≠ .degradedWrite ∧ op.ok = true then
      { s.counters with recovered := min (s.counters.recovered + 1) 65535 } else s.counters
    let closed := opAt t st = none ∧ accAt t op.acc = {} ∧ t.mem = s.mem ∧ t.holder = s.holder ∧ t.bank = s.bank ∧
      sameRecord s t
    let oneWord := op.kind = .recover ∨ op.kind = .mergeWrite ∨ op.kind = .degradedWrite
    t = replyOp st s ∧
    (∀ src tag seq, op.who = .peer src tag seq → oneWord →
      let kind : Kind := if op.kind = .recover then .recoverRsp else .writeRsp
      let status : Status := if op.ok then .ok else .lost
      let payload := if op.kind = .recover ∧ op.ok = true then [op.data] else []
      ((viewAt s src).state.available = false ∨ CanReply s src) →
      closed ∧
      ((viewAt s src).state.available = false → t.link = s.link) ∧
      (CanReply s src → t.link = { s.link with replies := { s.link.replies with q := s.link.replies.q ++
        [replyTo s src tag seq { kind := kind, status := status, f := { payload := payload } }] } }) ∧
      t.filter = doneWith s src tag seq (some { kind := kind, status := status, word := payload.head? }) ∧
      t.counters = recovered ∧ t.home.pool = s.home.pool ∧ t.tu = s.tu ∧ t.sweep = s.sweep ∧ t.port = s.port ∧
      t.causes = s.causes) ∧
    (op.who = .internalRebuild → op.kind = .recompute → opAt t st = none ∧ accAt t op.acc = {} ∧
      t.sweep.rebuildPtr = s.sweep.rebuildPtr + 1 ∧ t.counters = s.counters ∧ t.bank = s.bank ∧ sameRecord s t) ∧
    (∀ src tag seq, op.who = .peer src tag seq → op.kind = .rebuild → CanReply s src →
      opAt t st = some { op with step := .reply } ∧
      t.link = { s.link with replies := { s.link.replies with q := s.link.replies.q ++
        [{ replyTo s src tag seq { kind := .rebuildRsp, f := {
            payload := List.zipWith (fun w v => if v then 0 else w) (accAt s op.acc).words (accAt s op.acc).flags
            voids := (accAt s op.acc).flags } } with op := some st }] } } ∧
      t.filter = doneWith s src tag seq none ∧ t.home.accs = s.home.accs ∧ t.home.pool = s.home.pool ∧
      t.counters = s.counters ∧ t.tu = s.tu ∧ t.bank = s.bank ∧ t.mem = s.mem ∧ sameRecord s t) ∧
    (∀ n addr e, op.who = .own n → oneWord → n < s.tu.slots.length → (slotAt s n).inFlight = true →
      (slotAt s n).owner = some (.port addr) → startedEntry s addr = some e →
      closed ∧ SlotFreed t n ∧ t.link.replies = s.link.replies ∧ t.filter = s.filter ∧ t.home.pool = s.home.pool ∧
      t.sweep = s.sweep ∧
      (op.kind ≠ .recover → e.isWrite = true → WriteTold s t recovered op.ok op.who) ∧
      (op.kind = .recover → e.isWrite = false → op.ok = true →
        t.port = { entryLeft s e.addr with ack := true, ldo := maskLanes e.lanes op.data, lerr := false } ∧
        t.counters = recovered) ∧
      (op.kind = .recover → e.isWrite = false → e.phase = .second → op.ok = false →
        t.port = { entryLeft s e.addr with ack := true, ldo := 0, lerr := true } ∧
        t.counters = { s.counters with lost := min (s.counters.lost + 1) 65535 })) ∧
    (op.who = .nobody → closed ∧ t.link = s.link ∧ t.filter = s.filter ∧ t.tu = s.tu ∧ t.port = s.port) ∧
    (op.who = .internalList → op.kind = .recompute → s.link.waiters = [] →
      let due := s.home.pool.filter fun p => p.stripe == st && p.use == .answer
      due.length ≤ freePlaces s →
      (∀ p ∈ due, ∃ src tag seq, p.who = .peer src tag seq ∧ (viewAt s src).state.available = true) →
      let good (p : Place) : Prop := ∃ v, op.results[p.position]? = some (.gathered v) ∧
        v[p.offset - (op.list.range s.w).1]? = some false
      closed ∧ t.home.pool = s.home.pool.filter (fun p => !(p.stripe == st && p.use == .answer)) ∧
      (∃ sent, t.link = { s.link with replies := { s.link.replies with q := s.link.replies.q ++ sent } } ∧
        sent.length = due.length ∧
        ∀ (i : Nat) (p : Place), due[i]? = some p → ∃ src tag seq status, p.who = .peer src tag seq ∧
          sent[i]? = some (replyTo s src tag seq { kind := .writeRsp, status := status }) ∧
          (good p → status = .ok) ∧ (¬ good p → status = .lost)) ∧
      t.counters = s.counters ∧ t.tu = s.tu ∧ t.port = s.port ∧ t.sweep = s.sweep)

/-- R137: when the repair's slot ends, its head is removed, a drop being counted for NOT_READY and UNAVAILABLE and none
for a RECOVER_RSP, OK or LOST; then the next head is judged (R136). -/
def Obligations.RepairHeadsLeave : Prop :=
  ∀ (h : Nat × Nat) (rest : List (Nat × Nat)) (s : State), s.holder.repair = h :: rest → s.CountersFit →
    let next : State := s.setHolder { s.holder with repair := rest, repairOut := false }
    (∀ m, repairOutcome (.replied m) s = repairNext next) ∧
    repairOutcome .notReady s = repairNext (countDrops 1 next) ∧
    repairOutcome .unavailable s = repairNext (countDrops 1 next) ∧
    (rest = [] → (repairNext next).holder.repair = [] ∧ (repairNext next).tu = s.tu ∧ (repairNext next).counters = s.counters) ∧
    ∀ st o more, rest = (st, o) :: more →
      ((viewAt s (homeOf s.n st)).state.available = true →
        repairNext next = { s with
          holder := { s.holder with repair := rest, repairOut := true }
          tu := { s.tu with asks := s.tu.asks ++ [{
            owner := .repair, kind := .recover, dest := homeOf s.n st
            f := { stripe := st, position := roleOf s.n s.own st, offset := o, lanes := 0xF#4, purpose := .repair } }] } }) ∧
      ((viewAt s (homeOf s.n st)).state.available = false → more = [] →
        (repairNext next).holder.repair = [] ∧
        (repairNext next).counters = { s.counters with repairDrops := min (s.counters.repairDrops + 1) 65535 })

/-! ### The bank -/

/-- BANK_GRANT on the free bank grants the first claimant in rotation from the pointer that has a claim, its oldest claim
first, and moves the pointer past it (R18, R19). BANK_CLAIM_COMPLETION carries out the claim whole: a write writes its
words in ascending order, a merge writes what its decision asks for, a read writes nothing; each void word written counts a
lost word; the bank is free (R11, R15, R16, R140). The holder answers by the words read: to a peer in the place reserved,
or not at all when the view no longer admits it; to an own slot at once; a word good in the lanes read and bad in another
is offered to the repair queue (R36, R75, R101, R105, R108, R109, R135, R136). An exclusive operation takes the parity
words read into its accumulator while gathering, or for its folds; its parity write is done; then it goes on if nothing
else is awaited (R85, R95, R96, R128, R149). -/
def Obligations.ClaimsAreGrantedAndCompleteWhole : Prop :=
  (∀ (who : Claimant) (c : Claim) (rest : List Claim) (s : State), s.bank.busy = none → s.bank.due who = c :: rest →
     (who = s.bank.pointer ∨
       (who = s.bank.pointer.after ∧ s.bank.due s.bank.pointer = []) ∨
       (who = s.bank.pointer.after.after ∧ s.bank.due s.bank.pointer = [] ∧ s.bank.due s.bank.pointer.after = [])) →
     exec .bankGrant s = .next (s.setBank { (s.bank.setDue who rest) with
       pointer := who.after, busy := some { who := who, claim := c } })) ∧
  (∀ (b : BusyClaim) (s : State), s.bank.busy = some b → claimInBank s.straps b.claim = true →
     let read := claimReads s.bank.words b.claim
     let word := read.headD voidWord
     let lost := min (s.counters.lost + claimVoids b.claim) 65535
     ∃ t, exec .bankClaimCompletion s = .next t ∧ t.bank.busy = none ∧
       (∀ w, b.claim.op = .wordWrite w → t.bank.words = bankSet s.bank.words b.claim.first (formWord w)) ∧
       (∀ ws, b.claim.op = .burstWrite ws → t.bank.words = bankSetAll s.bank.words (numbered b.claim.first ws)) ∧
       (∀ g w, b.claim.op = .merge g → mergeDecision g (bankGet s.bank.words b.claim.first) = some w →
         t.bank.words = bankSet s.bank.words b.claim.first w) ∧
       (∀ g, b.claim.op = .merge g → mergeDecision g (bankGet s.bank.words b.claim.first) = none →
         t.bank.words = s.bank.words) ∧
       (b.claim.op = .wordRead → t.bank.words = s.bank.words) ∧
       (∀ n, b.claim.op = .burstRead n → t.bank.words = s.bank.words) ∧
       lost ≤ t.counters.lost ∧ t.straps = s.straps ∧ t.enables = s.enables ∧
       (∀ src tag seq k f, b.claim.work = .holder →
         s.holder.work = some { who := .peer src tag seq, kind := k, f := f } →
         let offered := k = .read ∧ goodIn f.lanes word = true ∧ isGood word = false
         let listed := (f.stripe, f.offset) ∈ s.holder.repair
         let counted (drops : Nat) := t.counters = { s.counters with
           lost := lost, repairDrops := if drops = 0 then s.counters.repairDrops else min (s.counters.repairDrops + drops) 65535 }
         t.holder.work = none ∧ t.mem = s.mem ∧ t.port = s.port ∧ t.sweep = s.sweep ∧ t.home = settleHome s.home ∧
         ((viewAt s src).state.available = true → t.link = { s.link with replies := { s.link.replies with
           q := s.link.replies.q ++ [replyTo s src tag seq (holderAnswer k f read)] } }) ∧
         ((viewAt s src).state.available = false → t.link = s.link) ∧
         t.filter = doneWith s src tag seq (cacheOf (holderAnswer k f read)) ∧
         (¬ offered ∨ listed → t.holder = { s.holder with work := none } ∧ t.tu = s.tu ∧ counted 0) ∧
         (offered → ¬ listed → 8 ≤ s.holder.repair.length →
           t.holder = { s.holder with work := none } ∧ t.tu = s.tu ∧ counted 1) ∧
         (offered → ¬ listed → s.holder.repair.length < 8 → s.holder.repairOut = true →
           t.holder = { s.holder with work := none, repair := s.holder.repair ++ [(f.stripe, f.offset)] } ∧
           t.tu = s.tu ∧ counted 0) ∧
         (offered → s.holder.repair = [] → s.holder.repairOut = false → s.counters.repairDrops ≤ 65535 →
           (viewAt s (homeOf s.n f.stripe)).state.available = true →
           t.holder = { s.holder with work := none, repair := [(f.stripe, f.offset)], repairOut := true } ∧ counted 0 ∧
           t.tu = { s.tu with asks := s.tu.asks ++ [{
             owner := .repair, kind := .recover, dest := homeOf s.n f.stripe
             f := { stripe := f.stripe, position := roleOf s.n s.own f.stripe, offset := f.offset, lanes := 0xF#4
                    purpose := .repair } }] })) ∧
       (∀ n addr e k f, b.claim.work = .holder → s.holder.work = some { who := .own n, kind := k, f := f } →
         n < s.tu.slots.length → (slotAt s n).inFlight = true → (slotAt s n).owner = some (.port addr) →
         startedEntry s addr = some e →
         SlotFreed t n ∧ t.holder.work = none ∧ t.link.replies = s.link.replies ∧ t.filter = s.filter ∧ t.mem = s.mem ∧
         t.sweep = s.sweep ∧
         (k = .read → e.isWrite = false → goodIn f.lanes word = true →
           t.port = { entryLeft s e.addr with
             ack := true, ldo := maskLanes e.lanes (maskLanes f.lanes word.data), lerr := false }) ∧
         (k = .read → e.isWrite = false → goodIn f.lanes word = false → e.phase = .first →
           reachable s (homeOf s.n e.stripe) = true →
           t.tu.asks = s.tu.asks ++ [{
             owner := .port e.addr, kind := .recover, dest := homeOf s.n e.stripe
             f := { stripe := e.stripe, position := e.position, offset := e.offset, lanes := e.lanes, purpose := .read } }] ∧
           t.port = { s.port with entries := s.port.entries.map fun x =>
             if x.addr = e.addr ∧ x.started = true then { x with phase := .second } else x }) ∧
         (k = .store → f.lanes ≠ 0 → e.isWrite = true →
           WriteTold s t { s.counters with lost := lost } (goodIn (~~~ f.lanes) word) (.own n))) ∧
       (∀ st op, opAt s st = some op → op.acc < s.home.accs.length → (∃ o, b.claim.work = .parityRead st o) ∨
           b.claim.work = .parityWrite st →
         ∃ u op', t = settle (opAdvance st u) ∧ opAt u st = some op' ∧
           (op'.complete = false → opAdvance st u = u) ∧
           u.bank = { s.bank with words := t.bank.words, busy := none } ∧ u.counters = { s.counters with lost := lost } ∧
           u.tu = s.tu ∧ u.link = s.link ∧ u.home.pool = s.home.pool ∧ u.mem = s.mem ∧ u.sweep = s.sweep ∧
           (∀ o, b.claim.work = .parityRead st o →
             op' = { op with
               claims := op.claims - 1, parity := read
               parityBad := if op.step = .fold then badOffsets read else op.parityBad } ∧
             accAt u op.acc = if op.step.accumulates then (accAt s op.acc).contributeFrom op.list.lists o
               (read.map fun w => if isGood w then some w.data else none) else accAt s op.acc) ∧
           (b.claim.work = .parityWrite st → op' = { op with claims := op.claims - 1 } ∧ u.home.accs = s.home.accs)))

/-- A completed cold-fill burst advances the fill by a stripe; at S the station becomes ACTIVE with STATE(ACTIVE) and its
audit timer, and otherwise the next stripe's burst of W good zero words is due (R43, R57, R144). The rebuild pointer
advances when the rebuilt or voided unit's burst completes; at S the rebuild completes: ACTIVE, STATE(ACTIVE), step
IDLE, REBUILD_DONE, the audit timer (R158, R161, R166, R167, R172). -/
def Obligations.PointersAdvanceByStripe : Prop :=
  (∀ (b : BusyClaim) (ws : List (Option Word)) (s : State), s.bank.busy = some b →
     b.claim.work = .fill → b.claim.op = .burstWrite ws → claimInBank s.straps b.claim = true →
     ∃ t, exec .bankClaimCompletion s = .next t ∧ t.mem.fillProgress = s.mem.fillProgress + 1 ∧
       t.bank.words = bankSetAll s.bank.words (numbered b.claim.first ws) ∧
       (s.mem.fillProgress + 1 < s.stripes → t.mem.ownState = s.mem.ownState ∧
         t.bank.sweepDue = s.bank.sweepDue ++ [{
           first := (s.mem.fillProgress + 1) * s.w, op := .burstWrite (List.replicate s.w (some 0)), work := .fill }]) ∧
       (s.stripes ≤ s.mem.fillProgress + 1 → t.mem.ownState = .active ∧ t.sweep.auditTimer = apDecode s.straps.ap ∧
         (∃ q ∈ t.link.notices.q, q.msg.kind = .state ∧ q.msg.nState = .active) ∧ t.bank.sweepDue = s.bank.sweepDue)) ∧
  (∀ (b : BusyClaim) (ws : List (Option Word)) (s : State), s.bank.busy = some b →
     b.claim.work = .unitStore → b.claim.op = .burstWrite ws → claimInBank s.straps b.claim = true →
     ∃ t, exec .bankClaimCompletion s = .next t ∧ t.sweep.rebuildPtr = s.sweep.rebuildPtr + 1 ∧
       t.bank.words = bankSetAll s.bank.words (numbered b.claim.first ws) ∧
       t.counters.lost = min (s.counters.lost + (ws.filter (·.isNone)).length) 65535 ∧
       (s.sweep.rebuildPtr + 1 < s.stripes → t.mem = s.mem ∧
         (homeOf s.n (s.sweep.rebuildPtr + 1) ≠ s.own → t.sweep.rebuildStep = .asking ∧
           t.tu.asks = s.tu.asks ++ [{
             owner := .sweep, kind := .rebuild, dest := homeOf s.n (s.sweep.rebuildPtr + 1)
             f := { stripe := s.sweep.rebuildPtr + 1, position := roleOf s.n s.own (s.sweep.rebuildPtr + 1) } }]) ∧
         (homeOf s.n (s.sweep.rebuildPtr + 1) = s.own → t.sweep.rebuildStep =
           if roomFor s (s.sweep.rebuildPtr + 1) then .recomputing else .waitingRoom)) ∧
       (s.stripes ≤ s.sweep.rebuildPtr + 1 → t.mem.ownState = .active ∧ t.sweep.rebuildStep = .idle ∧
         t.causes.rebuildDone = true ∧ t.sweep.auditTimer = apDecode s.straps.ap ∧
         ∃ q ∈ t.link.notices.q, q.msg.kind = .state ∧ q.msg.nState = .active))

/-! ### The sweep unit -/

/-- AUDIT_PERIOD_EXPIRY with no audit outstanding (R143, R144, R145, R146): with a station not ACTIVE the stripe is
skipped; with room the AUDIT is parked at the tail of its stripe; without, it is deferred, and at the eighth deferral
urgent. The waiting urgent audit is admitted at the end of the head section, and the waiting own RECOMPUTE at the
tail, when the room each needs exists; the pause over, the same stripe's REBUILD is asked for again (R84, R147, R162,
R165). The order `settleHome` gives the accumulator queue is the model's (log entry 17). -/
def Obligations.AuditsAreAdmittedByRoom : Prop :=
  (∀ s : State, s.sweep.auditTimer ≠ none → s.sweep.auditPhase = .idle →
     let st := s.sweep.auditPtr
     let all := ∀ j, j < s.n → j = s.own ∨ (viewAt s j).state = .active
     let next := if st + s.n < s.stripes then st + s.n else s.own
     (¬ all → exec .auditPeriodExpiry s = .next { s with
       home := settleHome s.home, sweep := { s.sweep with auditPtr := next, deferral := 0 } }) ∧
     (all → roomFor s st = true → ∃ t, exec .auditPeriodExpiry s = .next t ∧
       t.sweep = { s.sweep with deferral := 0, urgent := false, auditPhase := .admitted } ∧
       t.home.pool = s.home.pool ++ [{ stripe := st, kind := .audit, who := .internalAudit, use := .waitTail }] ∧
       t.home.hasEntry st = true ∧ t = { s with sweep := t.sweep, home := t.home }) ∧
     (all → roomFor s st = false → s.sweep.deferral < 7 → exec .auditPeriodExpiry s = .next { s with
       home := settleHome s.home, sweep := { s.sweep with deferral := s.sweep.deferral + 1 } }) ∧
     (all → roomFor s st = false → s.sweep.deferral = 7 → exec .auditPeriodExpiry s = .next { s with
       home := settleHome s.home, sweep := { s.sweep with deferral := 8, urgent := true, auditPhase := .waiting } })) ∧
  (∀ s : State,
     (s.sweep.auditPhase = .waiting → roomFor s s.sweep.auditPtr = true → ∃ t, exec .urgentAuditAdmission s = .next t ∧
       t.sweep = { s.sweep with deferral := 0, urgent := false, auditPhase := .admitted } ∧
       t.home.pool = s.home.pool ++
         [{ stripe := s.sweep.auditPtr, kind := .audit, who := .internalAudit, use := .waitUrgent }] ∧
       t.home.hasEntry s.sweep.auditPtr = true ∧ t = { s with sweep := t.sweep, home := t.home }) ∧
     (s.sweep.rebuildStep = .waitingRoom → roomFor s s.sweep.rebuildPtr = true →
       ∃ t, exec .ownRecomputeAdmission s = .next t ∧ t.sweep = { s.sweep with rebuildStep := .recomputing } ∧
       t.home.pool = s.home.pool ++
         [{ stripe := s.sweep.rebuildPtr, kind := .recomputeWhole, who := .internalRebuild, use := .waitTail }] ∧
       t.home.hasEntry s.sweep.rebuildPtr = true ∧ t = { s with sweep := t.sweep, home := t.home }) ∧
     (s.sweep.rebuildStep = .paused → s.sweep.pause ≠ none → exec .rebuildPauseExpiry s = .next { s with
       sweep := { s.sweep with rebuildStep := .asking, pause := none }
       tu := { s.tu with asks := s.tu.asks ++ [{
         owner := .sweep, kind := .rebuild, dest := homeOf s.n s.sweep.rebuildPtr
         f := { stripe := s.sweep.rebuildPtr, position := roleOf s.n s.own s.sweep.rebuildPtr } }] } }))

/-- R155: clean, repaired and resync advance the audit pointer to the next homed stripe, or back to the own number; no
result leaves it; each returns the deferral count to 0 and the phase to IDLE. -/
def Obligations.AuditResultsMovePointer : Prop :=
  ∀ s : State,
    let next := if s.sweep.auditPtr + s.n < s.stripes then s.sweep.auditPtr + s.n else s.own
    let moved := s.setSweep { s.sweep with auditPtr := next, deferral := 0, auditPhase := .idle }
    auditEnd .clean s = moved ∧ auditEnd .repaired s = moved ∧ auditEnd .resync s = moved ∧
    auditEnd .noResult s = s.setSweep { s.sweep with deferral := 0, auditPhase := .idle }
end

