-- ==== Sys2Proof/Laws/Bank.lean ====
section
/-! SUPPORT. The bank's list: every operation on it keeps the canonical form, and a word read after a write is the word
written (R9, R11, R15). -/

namespace Sys2Proof.Machine

theorem risesFrom_of_le {a b : Nat} (h : b ≤ a) : ∀ m, risesFrom a m = true → risesFrom b m = true
  | [], _ => rfl
  | (i, w) :: rest, hm => by
    simp only [risesFrom, Bool.and_eq_true, decide_eq_true_eq] at hm ⊢
    exact ⟨by omega, hm.2⟩

theorem rises_of_risesFrom {a : Nat} : ∀ m, risesFrom a m = true → rises m = true
  | [], _ => rfl
  | (i, w) :: rest, h => by
    simp only [risesFrom, Bool.and_eq_true, decide_eq_true_eq] at h
    simpa [rises] using h.2

/-- A word below every listed number is unlisted. -/
theorem bankGet_of_risesFrom {a i : Nat} (hi : i ≤ a) : ∀ m, risesFrom a m = true → bankGet m i = unlistedWord
  | [], _ => rfl
  | (j, w) :: rest, h => by
    simp only [risesFrom, Bool.and_eq_true, decide_eq_true_eq] at h
    have hj : j ≠ i := by omega
    simp only [bankGet, hj, if_false]
    exact bankGet_of_risesFrom (by omega) rest h.2

theorem risesFrom_bankErase (i : Nat) : ∀ (a : Nat) (m), risesFrom a m = true → risesFrom a (bankErase m i) = true
  | _, [], _ => rfl
  | a, (j, w) :: rest, h => by
    simp only [risesFrom, Bool.and_eq_true, decide_eq_true_eq] at h
    by_cases hj : j = i
    · simp only [bankErase, hj, if_true]; subst hj; exact risesFrom_of_le (by omega) rest h.2
    · simp only [bankErase, hj, if_false, risesFrom, Bool.and_eq_true, decide_eq_true_eq]
      exact ⟨h.1, risesFrom_bankErase i j rest h.2⟩

theorem rises_bankErase (i : Nat) (m) (h : rises m = true) : rises (bankErase m i) = true := by
  cases m with
  | nil => rfl
  | cons e rest =>
    obtain ⟨j, w⟩ := e
    have hr : risesFrom j rest = true := h
    by_cases hj : j = i
    · simp only [bankErase, hj, if_true]; exact rises_of_risesFrom rest hr
    · simp only [bankErase, hj, if_false]; exact risesFrom_bankErase i j rest hr

theorem risesFrom_bankPut (i : Nat) (x : BankWord) :
    ∀ (a : Nat) (m), a < i → risesFrom a m = true → risesFrom a (bankPut m i x) = true
  | a, [], ha, _ => by simp [bankPut, risesFrom, ha]
  | a, (j, w) :: rest, ha, h => by
    simp only [risesFrom, Bool.and_eq_true, decide_eq_true_eq] at h
    by_cases h1 : i < j
    · simp only [bankPut, h1, if_true, risesFrom, Bool.and_eq_true, decide_eq_true_eq]
      exact ⟨ha, trivial, h.2⟩
    · by_cases h2 : i = j
      · subst h2
        simp only [bankPut, Nat.lt_irrefl, if_false, if_true, risesFrom, Bool.and_eq_true, decide_eq_true_eq]
        exact ⟨ha, h.2⟩
      · simp only [bankPut, h1, h2, if_false, risesFrom, Bool.and_eq_true, decide_eq_true_eq]
        exact ⟨h.1, risesFrom_bankPut i x j rest (by omega) h.2⟩

theorem rises_bankPut (i : Nat) (x : BankWord) (m) (h : rises m = true) : rises (bankPut m i x) = true := by
  cases m with
  | nil => rfl
  | cons e rest =>
    obtain ⟨j, w⟩ := e
    have hr : risesFrom j rest = true := h
    by_cases h1 : i < j
    · simp only [bankPut, h1, if_true]
      simp only [rises, risesFrom, Bool.and_eq_true, decide_eq_true_eq]
      exact ⟨h1, hr⟩
    · by_cases h2 : i = j
      · subst h2; simp only [bankPut, Nat.lt_irrefl, if_false, if_true]; exact hr
      · simp only [bankPut, h1, h2, if_false]; exact risesFrom_bankPut i x j rest (by omega) hr

theorem mem_bankErase {e : Nat × BankWord} (i : Nat) : ∀ m, e ∈ bankErase m i → e ∈ m
  | [], h => h
  | (j, w) :: rest, h => by
    by_cases hj : j = i
    · simp only [bankErase, hj, if_true] at h; exact List.mem_cons_of_mem _ h
    · simp only [bankErase, hj, if_false, List.mem_cons] at h ⊢
      exact h.imp id (mem_bankErase i rest)

theorem mem_bankPut {e : Nat × BankWord} (i : Nat) (x : BankWord) : ∀ m, e ∈ bankPut m i x → e ∈ m ∨ e = (i, x)
  | [], h => by simpa [bankPut] using h
  | (j, w) :: rest, h => by
    by_cases h1 : i < j
    · simp only [bankPut, h1, if_true, List.mem_cons] at h ⊢
      rcases h with h | h | h <;> simp [h]
    · by_cases h2 : i = j
      · subst h2
        simp only [bankPut, Nat.lt_irrefl, if_false, if_true, List.mem_cons] at h ⊢
        rcases h with h | h <;> simp [h]
      · simp only [bankPut, h1, h2, if_false, List.mem_cons] at h ⊢
        rcases h with h | h
        · simp [h]
        · rcases mem_bankPut i x rest h with h | h <;> simp [h]

/-- A write of one bank word keeps the canonical form. -/
theorem bankSet_wf (m) (i : Nat) (x : BankWord) (h : Memory.wf m = true) : Memory.wf (bankSet m i x) = true := by
  simp only [Memory.wf, Bool.and_eq_true, List.all_eq_true, bne_iff_ne, ne_eq] at h ⊢
  by_cases hx : x = unlistedWord
  · simp only [bankSet, hx, if_true]
    exact ⟨rises_bankErase i m h.1, fun e he => h.2 e (mem_bankErase i m he)⟩
  · simp only [bankSet, hx, if_false]
    refine ⟨rises_bankPut i x m h.1, fun e he => ?_⟩
    rcases mem_bankPut i x m he with he | he
    · exact h.2 e he
    · subst he; exact hx

/-- A write of a list of bank words keeps the canonical form. -/
theorem bankSetAll_wf (ws) : ∀ m, Memory.wf m = true → Memory.wf (bankSetAll m ws) = true := by
  induction ws with
  | nil => intro m h; exact h
  | cons w ws ih => intro m h; exact ih _ (bankSet_wf m w.1 w.2 h)

theorem bankGet_bankErase (i k : Nat) : ∀ m, rises m = true →
    bankGet (bankErase m i) k = if k = i then unlistedWord else bankGet m k
  | [], _ => by simp [bankErase, bankGet]
  | (j, w) :: rest, h => by
    have hr : risesFrom j rest = true := h
    by_cases hj : j = i
    · subst hj
      simp only [bankErase, if_true]
      by_cases hk : k = j
      · subst hk; simp only [if_true]; exact bankGet_of_risesFrom (Nat.le_refl _) rest hr
      · simp only [hk, if_false, bankGet, Ne.symm hk]
    · simp only [bankErase, hj, if_false]
      by_cases hk : k = i
      · subst hk
        simp only [bankGet, hj, if_false, if_true]
        have := bankGet_bankErase k k rest (rises_of_risesFrom rest hr)
        simpa using this
      · have := bankGet_bankErase i k rest (rises_of_risesFrom rest hr)
        simp only [hk, if_false] at this
        simp only [bankGet, this, hk, if_false]

theorem bankGet_bankPut (i k : Nat) (x : BankWord) : ∀ m, rises m = true →
    bankGet (bankPut m i x) k = if k = i then x else bankGet m k
  | [], _ => by
    by_cases hk : i = k
    · simp [bankPut, bankGet, hk]
    · simp [bankPut, bankGet, hk, Ne.symm hk]
  | (j, w) :: rest, h => by
    have hr : risesFrom j rest = true := h
    by_cases h1 : i < j
    · simp only [bankPut, h1, if_true]
      by_cases hk : k = i
      · simp [bankGet, hk]
      · simp [bankGet, hk, Ne.symm hk]
    · by_cases h2 : i = j
      · subst h2
        simp only [bankPut, Nat.lt_irrefl, if_false, if_true]
        by_cases hk : k = i
        · simp [bankGet, hk]
        · simp [bankGet, hk, Ne.symm hk]
      · simp only [bankPut, h1, h2, if_false, bankGet]
        rw [bankGet_bankPut i k x rest (rises_of_risesFrom rest hr)]
        by_cases hk : k = i
        · subst hk; simp [Ne.symm h2]
        · simp [hk]

/-- A bank word after a write of one word: the word written, or as before. -/
theorem bankGet_bankSet (m) (i k : Nat) (x : BankWord) (h : Memory.wf m = true) :
    bankGet (bankSet m i x) k = if k = i then x else bankGet m k := by
  simp only [Memory.wf, Bool.and_eq_true] at h
  by_cases hx : x = unlistedWord
  · simp only [bankSet, hx, if_true]; exact bankGet_bankErase i k m h.1
  · simp only [bankSet, hx, if_false]; exact bankGet_bankPut i k x m h.1

/-- A bank word that a list of writes does not name stays as it was. -/
theorem bankGet_bankSetAll_of_not_mem (ws : List (Nat × BankWord)) (k : Nat) (hk : ∀ e ∈ ws, e.1 ≠ k) :
    ∀ m, Memory.wf m = true → bankGet (bankSetAll m ws) k = bankGet m k := by
  induction ws with
  | nil => intro m _; rfl
  | cons w ws ih =>
    intro m h
    have hw : k ≠ w.1 := fun e => hk w (List.mem_cons_self ..) e.symm
    have := ih (fun e he => hk e (List.mem_cons_of_mem _ he)) (bankSet m w.1 w.2) (bankSet_wf m w.1 w.2 h)
    simp only [bankSetAll, List.foldl_cons] at this ⊢
    rw [this, bankGet_bankSet m w.1 k w.2 h, if_neg hw]

/-- The power-on bank has the canonical form. -/
theorem reset_bank_wf : Memory.wf State.reset.bank.words = true := rfl

end Sys2Proof.Machine
end

