-- ==== Sys2Proof/Laws/State.lean ====
section
/-! SUPPORT. What each block of the state is after each block update. -/

namespace Sys2Proof.Machine

/-! ### setMem -/

@[simp] theorem State.setMem_straps (s : State) (v : Membership) : (s.setMem v).straps = s.straps := rfl
@[simp] theorem State.setMem_inReset (s : State) (v : Membership) : (s.setMem v).inReset = s.inReset := rfl
@[simp] theorem State.setMem_mem (s : State) (v : Membership) : (s.setMem v).mem = v := rfl
@[simp] theorem State.setMem_link (s : State) (v : Membership) : (s.setMem v).link = s.link := rfl
@[simp] theorem State.setMem_tu (s : State) (v : Membership) : (s.setMem v).tu = s.tu := rfl
@[simp] theorem State.setMem_filter (s : State) (v : Membership) : (s.setMem v).filter = s.filter := rfl
@[simp] theorem State.setMem_holder (s : State) (v : Membership) : (s.setMem v).holder = s.holder := rfl
@[simp] theorem State.setMem_home (s : State) (v : Membership) : (s.setMem v).home = s.home := rfl
@[simp] theorem State.setMem_sweep (s : State) (v : Membership) : (s.setMem v).sweep = s.sweep := rfl
@[simp] theorem State.setMem_port (s : State) (v : Membership) : (s.setMem v).port = s.port := rfl
@[simp] theorem State.setMem_counters (s : State) (v : Membership) : (s.setMem v).counters = s.counters := rfl
@[simp] theorem State.setMem_causes (s : State) (v : Membership) : (s.setMem v).causes = s.causes := rfl
@[simp] theorem State.setMem_enables (s : State) (v : Membership) : (s.setMem v).enables = s.enables := rfl
@[simp] theorem State.setMem_bank (s : State) (v : Membership) : (s.setMem v).bank = s.bank := rfl
@[simp] theorem State.setMem_pending (s : State) (v : Membership) : (s.setMem v).pending = s.pending := rfl

/-! ### setLink -/

@[simp] theorem State.setLink_straps (s : State) (v : Link) : (s.setLink v).straps = s.straps := rfl
@[simp] theorem State.setLink_inReset (s : State) (v : Link) : (s.setLink v).inReset = s.inReset := rfl
@[simp] theorem State.setLink_mem (s : State) (v : Link) : (s.setLink v).mem = s.mem := rfl
@[simp] theorem State.setLink_link (s : State) (v : Link) : (s.setLink v).link = v := rfl
@[simp] theorem State.setLink_tu (s : State) (v : Link) : (s.setLink v).tu = s.tu := rfl
@[simp] theorem State.setLink_filter (s : State) (v : Link) : (s.setLink v).filter = s.filter := rfl
@[simp] theorem State.setLink_holder (s : State) (v : Link) : (s.setLink v).holder = s.holder := rfl
@[simp] theorem State.setLink_home (s : State) (v : Link) : (s.setLink v).home = s.home := rfl
@[simp] theorem State.setLink_sweep (s : State) (v : Link) : (s.setLink v).sweep = s.sweep := rfl
@[simp] theorem State.setLink_port (s : State) (v : Link) : (s.setLink v).port = s.port := rfl
@[simp] theorem State.setLink_counters (s : State) (v : Link) : (s.setLink v).counters = s.counters := rfl
@[simp] theorem State.setLink_causes (s : State) (v : Link) : (s.setLink v).causes = s.causes := rfl
@[simp] theorem State.setLink_enables (s : State) (v : Link) : (s.setLink v).enables = s.enables := rfl
@[simp] theorem State.setLink_bank (s : State) (v : Link) : (s.setLink v).bank = s.bank := rfl
@[simp] theorem State.setLink_pending (s : State) (v : Link) : (s.setLink v).pending = s.pending := rfl

/-! ### setTu -/

@[simp] theorem State.setTu_straps (s : State) (v : TxnUnit) : (s.setTu v).straps = s.straps := rfl
@[simp] theorem State.setTu_inReset (s : State) (v : TxnUnit) : (s.setTu v).inReset = s.inReset := rfl
@[simp] theorem State.setTu_mem (s : State) (v : TxnUnit) : (s.setTu v).mem = s.mem := rfl
@[simp] theorem State.setTu_link (s : State) (v : TxnUnit) : (s.setTu v).link = s.link := rfl
@[simp] theorem State.setTu_tu (s : State) (v : TxnUnit) : (s.setTu v).tu = v := rfl
@[simp] theorem State.setTu_filter (s : State) (v : TxnUnit) : (s.setTu v).filter = s.filter := rfl
@[simp] theorem State.setTu_holder (s : State) (v : TxnUnit) : (s.setTu v).holder = s.holder := rfl
@[simp] theorem State.setTu_home (s : State) (v : TxnUnit) : (s.setTu v).home = s.home := rfl
@[simp] theorem State.setTu_sweep (s : State) (v : TxnUnit) : (s.setTu v).sweep = s.sweep := rfl
@[simp] theorem State.setTu_port (s : State) (v : TxnUnit) : (s.setTu v).port = s.port := rfl
@[simp] theorem State.setTu_counters (s : State) (v : TxnUnit) : (s.setTu v).counters = s.counters := rfl
@[simp] theorem State.setTu_causes (s : State) (v : TxnUnit) : (s.setTu v).causes = s.causes := rfl
@[simp] theorem State.setTu_enables (s : State) (v : TxnUnit) : (s.setTu v).enables = s.enables := rfl
@[simp] theorem State.setTu_bank (s : State) (v : TxnUnit) : (s.setTu v).bank = s.bank := rfl
@[simp] theorem State.setTu_pending (s : State) (v : TxnUnit) : (s.setTu v).pending = s.pending := rfl

/-! ### setFilter -/

@[simp] theorem State.setFilter_straps (s : State) (v : List FilterEntry) : (s.setFilter v).straps = s.straps := rfl
@[simp] theorem State.setFilter_inReset (s : State) (v : List FilterEntry) : (s.setFilter v).inReset = s.inReset := rfl
@[simp] theorem State.setFilter_mem (s : State) (v : List FilterEntry) : (s.setFilter v).mem = s.mem := rfl
@[simp] theorem State.setFilter_link (s : State) (v : List FilterEntry) : (s.setFilter v).link = s.link := rfl
@[simp] theorem State.setFilter_tu (s : State) (v : List FilterEntry) : (s.setFilter v).tu = s.tu := rfl
@[simp] theorem State.setFilter_filter (s : State) (v : List FilterEntry) : (s.setFilter v).filter = v := rfl
@[simp] theorem State.setFilter_holder (s : State) (v : List FilterEntry) : (s.setFilter v).holder = s.holder := rfl
@[simp] theorem State.setFilter_home (s : State) (v : List FilterEntry) : (s.setFilter v).home = s.home := rfl
@[simp] theorem State.setFilter_sweep (s : State) (v : List FilterEntry) : (s.setFilter v).sweep = s.sweep := rfl
@[simp] theorem State.setFilter_port (s : State) (v : List FilterEntry) : (s.setFilter v).port = s.port := rfl
@[simp] theorem State.setFilter_counters (s : State) (v : List FilterEntry) : (s.setFilter v).counters = s.counters := rfl
@[simp] theorem State.setFilter_causes (s : State) (v : List FilterEntry) : (s.setFilter v).causes = s.causes := rfl
@[simp] theorem State.setFilter_enables (s : State) (v : List FilterEntry) : (s.setFilter v).enables = s.enables := rfl
@[simp] theorem State.setFilter_bank (s : State) (v : List FilterEntry) : (s.setFilter v).bank = s.bank := rfl
@[simp] theorem State.setFilter_pending (s : State) (v : List FilterEntry) : (s.setFilter v).pending = s.pending := rfl

/-! ### setHolder -/

@[simp] theorem State.setHolder_straps (s : State) (v : Holder) : (s.setHolder v).straps = s.straps := rfl
@[simp] theorem State.setHolder_inReset (s : State) (v : Holder) : (s.setHolder v).inReset = s.inReset := rfl
@[simp] theorem State.setHolder_mem (s : State) (v : Holder) : (s.setHolder v).mem = s.mem := rfl
@[simp] theorem State.setHolder_link (s : State) (v : Holder) : (s.setHolder v).link = s.link := rfl
@[simp] theorem State.setHolder_tu (s : State) (v : Holder) : (s.setHolder v).tu = s.tu := rfl
@[simp] theorem State.setHolder_filter (s : State) (v : Holder) : (s.setHolder v).filter = s.filter := rfl
@[simp] theorem State.setHolder_holder (s : State) (v : Holder) : (s.setHolder v).holder = v := rfl
@[simp] theorem State.setHolder_home (s : State) (v : Holder) : (s.setHolder v).home = s.home := rfl
@[simp] theorem State.setHolder_sweep (s : State) (v : Holder) : (s.setHolder v).sweep = s.sweep := rfl
@[simp] theorem State.setHolder_port (s : State) (v : Holder) : (s.setHolder v).port = s.port := rfl
@[simp] theorem State.setHolder_counters (s : State) (v : Holder) : (s.setHolder v).counters = s.counters := rfl
@[simp] theorem State.setHolder_causes (s : State) (v : Holder) : (s.setHolder v).causes = s.causes := rfl
@[simp] theorem State.setHolder_enables (s : State) (v : Holder) : (s.setHolder v).enables = s.enables := rfl
@[simp] theorem State.setHolder_bank (s : State) (v : Holder) : (s.setHolder v).bank = s.bank := rfl
@[simp] theorem State.setHolder_pending (s : State) (v : Holder) : (s.setHolder v).pending = s.pending := rfl

/-! ### setHome -/

@[simp] theorem State.setHome_straps (s : State) (v : Home) : (s.setHome v).straps = s.straps := rfl
@[simp] theorem State.setHome_inReset (s : State) (v : Home) : (s.setHome v).inReset = s.inReset := rfl
@[simp] theorem State.setHome_mem (s : State) (v : Home) : (s.setHome v).mem = s.mem := rfl
@[simp] theorem State.setHome_link (s : State) (v : Home) : (s.setHome v).link = s.link := rfl
@[simp] theorem State.setHome_tu (s : State) (v : Home) : (s.setHome v).tu = s.tu := rfl
@[simp] theorem State.setHome_filter (s : State) (v : Home) : (s.setHome v).filter = s.filter := rfl
@[simp] theorem State.setHome_holder (s : State) (v : Home) : (s.setHome v).holder = s.holder := rfl
@[simp] theorem State.setHome_home (s : State) (v : Home) : (s.setHome v).home = v := rfl
@[simp] theorem State.setHome_sweep (s : State) (v : Home) : (s.setHome v).sweep = s.sweep := rfl
@[simp] theorem State.setHome_port (s : State) (v : Home) : (s.setHome v).port = s.port := rfl
@[simp] theorem State.setHome_counters (s : State) (v : Home) : (s.setHome v).counters = s.counters := rfl
@[simp] theorem State.setHome_causes (s : State) (v : Home) : (s.setHome v).causes = s.causes := rfl
@[simp] theorem State.setHome_enables (s : State) (v : Home) : (s.setHome v).enables = s.enables := rfl
@[simp] theorem State.setHome_bank (s : State) (v : Home) : (s.setHome v).bank = s.bank := rfl
@[simp] theorem State.setHome_pending (s : State) (v : Home) : (s.setHome v).pending = s.pending := rfl

/-! ### setSweep -/

@[simp] theorem State.setSweep_straps (s : State) (v : Sweep) : (s.setSweep v).straps = s.straps := rfl
@[simp] theorem State.setSweep_inReset (s : State) (v : Sweep) : (s.setSweep v).inReset = s.inReset := rfl
@[simp] theorem State.setSweep_mem (s : State) (v : Sweep) : (s.setSweep v).mem = s.mem := rfl
@[simp] theorem State.setSweep_link (s : State) (v : Sweep) : (s.setSweep v).link = s.link := rfl
@[simp] theorem State.setSweep_tu (s : State) (v : Sweep) : (s.setSweep v).tu = s.tu := rfl
@[simp] theorem State.setSweep_filter (s : State) (v : Sweep) : (s.setSweep v).filter = s.filter := rfl
@[simp] theorem State.setSweep_holder (s : State) (v : Sweep) : (s.setSweep v).holder = s.holder := rfl
@[simp] theorem State.setSweep_home (s : State) (v : Sweep) : (s.setSweep v).home = s.home := rfl
@[simp] theorem State.setSweep_sweep (s : State) (v : Sweep) : (s.setSweep v).sweep = v := rfl
@[simp] theorem State.setSweep_port (s : State) (v : Sweep) : (s.setSweep v).port = s.port := rfl
@[simp] theorem State.setSweep_counters (s : State) (v : Sweep) : (s.setSweep v).counters = s.counters := rfl
@[simp] theorem State.setSweep_causes (s : State) (v : Sweep) : (s.setSweep v).causes = s.causes := rfl
@[simp] theorem State.setSweep_enables (s : State) (v : Sweep) : (s.setSweep v).enables = s.enables := rfl
@[simp] theorem State.setSweep_bank (s : State) (v : Sweep) : (s.setSweep v).bank = s.bank := rfl
@[simp] theorem State.setSweep_pending (s : State) (v : Sweep) : (s.setSweep v).pending = s.pending := rfl

/-! ### setPort -/

@[simp] theorem State.setPort_straps (s : State) (v : Port) : (s.setPort v).straps = s.straps := rfl
@[simp] theorem State.setPort_inReset (s : State) (v : Port) : (s.setPort v).inReset = s.inReset := rfl
@[simp] theorem State.setPort_mem (s : State) (v : Port) : (s.setPort v).mem = s.mem := rfl
@[simp] theorem State.setPort_link (s : State) (v : Port) : (s.setPort v).link = s.link := rfl
@[simp] theorem State.setPort_tu (s : State) (v : Port) : (s.setPort v).tu = s.tu := rfl
@[simp] theorem State.setPort_filter (s : State) (v : Port) : (s.setPort v).filter = s.filter := rfl
@[simp] theorem State.setPort_holder (s : State) (v : Port) : (s.setPort v).holder = s.holder := rfl
@[simp] theorem State.setPort_home (s : State) (v : Port) : (s.setPort v).home = s.home := rfl
@[simp] theorem State.setPort_sweep (s : State) (v : Port) : (s.setPort v).sweep = s.sweep := rfl
@[simp] theorem State.setPort_port (s : State) (v : Port) : (s.setPort v).port = v := rfl
@[simp] theorem State.setPort_counters (s : State) (v : Port) : (s.setPort v).counters = s.counters := rfl
@[simp] theorem State.setPort_causes (s : State) (v : Port) : (s.setPort v).causes = s.causes := rfl
@[simp] theorem State.setPort_enables (s : State) (v : Port) : (s.setPort v).enables = s.enables := rfl
@[simp] theorem State.setPort_bank (s : State) (v : Port) : (s.setPort v).bank = s.bank := rfl
@[simp] theorem State.setPort_pending (s : State) (v : Port) : (s.setPort v).pending = s.pending := rfl

/-! ### setCounters -/

@[simp] theorem State.setCounters_straps (s : State) (v : Counters) : (s.setCounters v).straps = s.straps := rfl
@[simp] theorem State.setCounters_inReset (s : State) (v : Counters) : (s.setCounters v).inReset = s.inReset := rfl
@[simp] theorem State.setCounters_mem (s : State) (v : Counters) : (s.setCounters v).mem = s.mem := rfl
@[simp] theorem State.setCounters_link (s : State) (v : Counters) : (s.setCounters v).link = s.link := rfl
@[simp] theorem State.setCounters_tu (s : State) (v : Counters) : (s.setCounters v).tu = s.tu := rfl
@[simp] theorem State.setCounters_filter (s : State) (v : Counters) : (s.setCounters v).filter = s.filter := rfl
@[simp] theorem State.setCounters_holder (s : State) (v : Counters) : (s.setCounters v).holder = s.holder := rfl
@[simp] theorem State.setCounters_home (s : State) (v : Counters) : (s.setCounters v).home = s.home := rfl
@[simp] theorem State.setCounters_sweep (s : State) (v : Counters) : (s.setCounters v).sweep = s.sweep := rfl
@[simp] theorem State.setCounters_port (s : State) (v : Counters) : (s.setCounters v).port = s.port := rfl
@[simp] theorem State.setCounters_counters (s : State) (v : Counters) : (s.setCounters v).counters = v := rfl
@[simp] theorem State.setCounters_causes (s : State) (v : Counters) : (s.setCounters v).causes = s.causes := rfl
@[simp] theorem State.setCounters_enables (s : State) (v : Counters) : (s.setCounters v).enables = s.enables := rfl
@[simp] theorem State.setCounters_bank (s : State) (v : Counters) : (s.setCounters v).bank = s.bank := rfl
@[simp] theorem State.setCounters_pending (s : State) (v : Counters) : (s.setCounters v).pending = s.pending := rfl

/-! ### setCauses -/

@[simp] theorem State.setCauses_straps (s : State) (v : Causes) : (s.setCauses v).straps = s.straps := rfl
@[simp] theorem State.setCauses_inReset (s : State) (v : Causes) : (s.setCauses v).inReset = s.inReset := rfl
@[simp] theorem State.setCauses_mem (s : State) (v : Causes) : (s.setCauses v).mem = s.mem := rfl
@[simp] theorem State.setCauses_link (s : State) (v : Causes) : (s.setCauses v).link = s.link := rfl
@[simp] theorem State.setCauses_tu (s : State) (v : Causes) : (s.setCauses v).tu = s.tu := rfl
@[simp] theorem State.setCauses_filter (s : State) (v : Causes) : (s.setCauses v).filter = s.filter := rfl
@[simp] theorem State.setCauses_holder (s : State) (v : Causes) : (s.setCauses v).holder = s.holder := rfl
@[simp] theorem State.setCauses_home (s : State) (v : Causes) : (s.setCauses v).home = s.home := rfl
@[simp] theorem State.setCauses_sweep (s : State) (v : Causes) : (s.setCauses v).sweep = s.sweep := rfl
@[simp] theorem State.setCauses_port (s : State) (v : Causes) : (s.setCauses v).port = s.port := rfl
@[simp] theorem State.setCauses_counters (s : State) (v : Causes) : (s.setCauses v).counters = s.counters := rfl
@[simp] theorem State.setCauses_causes (s : State) (v : Causes) : (s.setCauses v).causes = v := rfl
@[simp] theorem State.setCauses_enables (s : State) (v : Causes) : (s.setCauses v).enables = s.enables := rfl
@[simp] theorem State.setCauses_bank (s : State) (v : Causes) : (s.setCauses v).bank = s.bank := rfl
@[simp] theorem State.setCauses_pending (s : State) (v : Causes) : (s.setCauses v).pending = s.pending := rfl

/-! ### setEnables -/

@[simp] theorem State.setEnables_straps (s : State) (v : Causes) : (s.setEnables v).straps = s.straps := rfl
@[simp] theorem State.setEnables_inReset (s : State) (v : Causes) : (s.setEnables v).inReset = s.inReset := rfl
@[simp] theorem State.setEnables_mem (s : State) (v : Causes) : (s.setEnables v).mem = s.mem := rfl
@[simp] theorem State.setEnables_link (s : State) (v : Causes) : (s.setEnables v).link = s.link := rfl
@[simp] theorem State.setEnables_tu (s : State) (v : Causes) : (s.setEnables v).tu = s.tu := rfl
@[simp] theorem State.setEnables_filter (s : State) (v : Causes) : (s.setEnables v).filter = s.filter := rfl
@[simp] theorem State.setEnables_holder (s : State) (v : Causes) : (s.setEnables v).holder = s.holder := rfl
@[simp] theorem State.setEnables_home (s : State) (v : Causes) : (s.setEnables v).home = s.home := rfl
@[simp] theorem State.setEnables_sweep (s : State) (v : Causes) : (s.setEnables v).sweep = s.sweep := rfl
@[simp] theorem State.setEnables_port (s : State) (v : Causes) : (s.setEnables v).port = s.port := rfl
@[simp] theorem State.setEnables_counters (s : State) (v : Causes) : (s.setEnables v).counters = s.counters := rfl
@[simp] theorem State.setEnables_causes (s : State) (v : Causes) : (s.setEnables v).causes = s.causes := rfl
@[simp] theorem State.setEnables_enables (s : State) (v : Causes) : (s.setEnables v).enables = v := rfl
@[simp] theorem State.setEnables_bank (s : State) (v : Causes) : (s.setEnables v).bank = s.bank := rfl
@[simp] theorem State.setEnables_pending (s : State) (v : Causes) : (s.setEnables v).pending = s.pending := rfl

/-! ### setBank -/

@[simp] theorem State.setBank_straps (s : State) (v : Bank) : (s.setBank v).straps = s.straps := rfl
@[simp] theorem State.setBank_inReset (s : State) (v : Bank) : (s.setBank v).inReset = s.inReset := rfl
@[simp] theorem State.setBank_mem (s : State) (v : Bank) : (s.setBank v).mem = s.mem := rfl
@[simp] theorem State.setBank_link (s : State) (v : Bank) : (s.setBank v).link = s.link := rfl
@[simp] theorem State.setBank_tu (s : State) (v : Bank) : (s.setBank v).tu = s.tu := rfl
@[simp] theorem State.setBank_filter (s : State) (v : Bank) : (s.setBank v).filter = s.filter := rfl
@[simp] theorem State.setBank_holder (s : State) (v : Bank) : (s.setBank v).holder = s.holder := rfl
@[simp] theorem State.setBank_home (s : State) (v : Bank) : (s.setBank v).home = s.home := rfl
@[simp] theorem State.setBank_sweep (s : State) (v : Bank) : (s.setBank v).sweep = s.sweep := rfl
@[simp] theorem State.setBank_port (s : State) (v : Bank) : (s.setBank v).port = s.port := rfl
@[simp] theorem State.setBank_counters (s : State) (v : Bank) : (s.setBank v).counters = s.counters := rfl
@[simp] theorem State.setBank_causes (s : State) (v : Bank) : (s.setBank v).causes = s.causes := rfl
@[simp] theorem State.setBank_enables (s : State) (v : Bank) : (s.setBank v).enables = s.enables := rfl
@[simp] theorem State.setBank_bank (s : State) (v : Bank) : (s.setBank v).bank = v := rfl
@[simp] theorem State.setBank_pending (s : State) (v : Bank) : (s.setBank v).pending = s.pending := rfl

/-! ### setPending -/

@[simp] theorem State.setPending_straps (s : State) (v : List Instr) : (s.setPending v).straps = s.straps := rfl
@[simp] theorem State.setPending_inReset (s : State) (v : List Instr) : (s.setPending v).inReset = s.inReset := rfl
@[simp] theorem State.setPending_mem (s : State) (v : List Instr) : (s.setPending v).mem = s.mem := rfl
@[simp] theorem State.setPending_link (s : State) (v : List Instr) : (s.setPending v).link = s.link := rfl
@[simp] theorem State.setPending_tu (s : State) (v : List Instr) : (s.setPending v).tu = s.tu := rfl
@[simp] theorem State.setPending_filter (s : State) (v : List Instr) : (s.setPending v).filter = s.filter := rfl
@[simp] theorem State.setPending_holder (s : State) (v : List Instr) : (s.setPending v).holder = s.holder := rfl
@[simp] theorem State.setPending_home (s : State) (v : List Instr) : (s.setPending v).home = s.home := rfl
@[simp] theorem State.setPending_sweep (s : State) (v : List Instr) : (s.setPending v).sweep = s.sweep := rfl
@[simp] theorem State.setPending_port (s : State) (v : List Instr) : (s.setPending v).port = s.port := rfl
@[simp] theorem State.setPending_counters (s : State) (v : List Instr) : (s.setPending v).counters = s.counters := rfl
@[simp] theorem State.setPending_causes (s : State) (v : List Instr) : (s.setPending v).causes = s.causes := rfl
@[simp] theorem State.setPending_enables (s : State) (v : List Instr) : (s.setPending v).enables = s.enables := rfl
@[simp] theorem State.setPending_bank (s : State) (v : List Instr) : (s.setPending v).bank = s.bank := rfl
@[simp] theorem State.setPending_pending (s : State) (v : List Instr) : (s.setPending v).pending = v := rfl

end Sys2Proof.Machine
end

