-- ==== Sys2Proof/Laws/Fixed.lean ====
section
/-! SUPPORT. What no shared operation changes: the straps, the reset line, the enables, the queue of commands and the
bank's words. One lemma for each operation; the exceptions are the meanings of the resets, the write to the enables and
the completion of a claim. -/

namespace Sys2Proof.Machine

/-- The part of the state that the shared operations leave alone. -/
def State.fixed (s : State) : StrapPins × Bool × Causes × List Instr × List (Nat × BankWord) :=
  (s.straps, s.inReset, s.enables, s.pending, s.bank.words)

@[simp] theorem State.setMem_fixed (s : State) (v : Membership) : (s.setMem v).fixed = s.fixed := rfl
@[simp] theorem State.setLink_fixed (s : State) (v : Link) : (s.setLink v).fixed = s.fixed := rfl
@[simp] theorem State.setTu_fixed (s : State) (v : TxnUnit) : (s.setTu v).fixed = s.fixed := rfl
@[simp] theorem State.setFilter_fixed (s : State) (v : List FilterEntry) : (s.setFilter v).fixed = s.fixed := rfl
@[simp] theorem State.setHolder_fixed (s : State) (v : Holder) : (s.setHolder v).fixed = s.fixed := rfl
@[simp] theorem State.setHome_fixed (s : State) (v : Home) : (s.setHome v).fixed = s.fixed := rfl
@[simp] theorem State.setSweep_fixed (s : State) (v : Sweep) : (s.setSweep v).fixed = s.fixed := rfl
@[simp] theorem State.setPort_fixed (s : State) (v : Port) : (s.setPort v).fixed = s.fixed := rfl
@[simp] theorem State.setCounters_fixed (s : State) (v : Counters) : (s.setCounters v).fixed = s.fixed := rfl
@[simp] theorem State.setCauses_fixed (s : State) (v : Causes) : (s.setCauses v).fixed = s.fixed := rfl

/-- A fold of steps that leave the fixed part alone leaves it alone. -/
theorem foldl_fixed {α : Type} (g : State → α → State) (hg : ∀ s x, (g s x).fixed = s.fixed) :
    ∀ (l : List α) (s : State), (l.foldl g s).fixed = s.fixed
  | [], _ => rfl
  | x :: l, s => (foldl_fixed g hg l (g s x)).trans (hg s x)

theorem setBank_fixed {s : State} {b : Bank} (h : b.words = s.bank.words) : (s.setBank b).fixed = s.fixed := by
  simp [State.fixed, h]

theorem fixed_bank_words {s t : State} (h : t.fixed = s.fixed) : t.bank.words = s.bank.words :=
  congrArg (fun x => x.2.2.2.2) h

@[simp] theorem countRecovered_fixed (s : State) :
    (countRecovered s).fixed = s.fixed := by
  simp only [countRecovered]
  (repeat' split) <;> simp

@[simp] theorem countLost_fixed (k : Nat) (s : State) :
    (countLost k s).fixed = s.fixed := by
  simp only [countLost]
  (repeat' split) <;> simp

@[simp] theorem countResync_fixed (s : State) :
    (countResync s).fixed = s.fixed := by
  simp only [countResync]
  (repeat' split) <;> simp

@[simp] theorem countDrops_fixed (k : Nat) (s : State) :
    (countDrops k s).fixed = s.fixed := by
  simp only [countDrops]
  (repeat' split) <;> simp

@[simp] theorem countBusy_fixed (s : State) :
    (countBusy s).fixed = s.fixed := by
  simp only [countBusy]
  (repeat' split) <;> simp

@[simp] theorem causeView_fixed (b : Bool) (s : State) :
    (causeView b s).fixed = s.fixed := by
  simp only [causeView]
  (repeat' split) <;> simp

@[simp] theorem causeAudit_fixed (s : State) :
    (causeAudit s).fixed = s.fixed := by
  simp only [causeAudit]
  (repeat' split) <;> simp

@[simp] theorem causeRebuildDone_fixed (s : State) :
    (causeRebuildDone s).fixed = s.fixed := by
  simp only [causeRebuildDone]
  (repeat' split) <;> simp

@[simp] theorem writeFault_fixed (addr : Nat) (k : PortFault) (s : State) :
    (writeFault addr k s).fixed = s.fixed := by
  simp only [writeFault]
  (repeat' split) <;> simp

@[simp] theorem clearCauses_fixed (lanes : Lanes) (data : Word) (s : State) :
    (clearCauses lanes data s).fixed = s.fixed := by
  simp only [clearCauses]
  (repeat' split) <;> simp

@[simp] theorem dueClaim_fixed (who : Claimant) (c : Claim) (s : State) :
    (dueClaim who c s).fixed = s.fixed := by cases who <;> rfl

@[simp] theorem setView_fixed (j : Nat) (v : ViewEntry) (s : State) :
    (setView j v s).fixed = s.fixed := by
  simp only [setView]
  (repeat' split) <;> simp

@[simp] theorem setOwnState_fixed (st : OwnState) (s : State) :
    (setOwnState st s).fixed = s.fixed := by
  simp only [setOwnState]
  (repeat' split) <;> simp

@[simp] theorem withdraw_fixed (sel : OutSel) (p : OutMsg → Bool) (s : State) :
    (withdraw sel p s).fixed = s.fixed := by
  simp only [withdraw]
  (repeat' split) <;> simp

@[simp] theorem waitHead_fixed (s : State) :
    (waitHead s).fixed = s.fixed := by
  simp only [waitHead]
  (repeat' split) <;> simp

@[simp] theorem popInbound_fixed (s : State) :
    (popInbound s).fixed = s.fixed := by
  simp only [popInbound]
  (repeat' split) <;> simp

@[simp] theorem pushReply_fixed (m : OutMsg) (s : State) :
    (pushReply m s).fixed = s.fixed := by
  simp only [pushReply]
  (repeat' split) <;> simp

@[simp] theorem queueNotice_fixed (n : Msg) (s : State) :
    (queueNotice n s).fixed = s.fixed := by
  simp only [queueNotice]
  (repeat' split) <;> simp

@[simp] theorem filterTake_fixed (m : Msg) (s : State) :
    (filterTake m s).fixed = s.fixed := by
  simp only [filterTake]
  (repeat' split) <;> simp

@[simp] theorem filterStep_fixed (src tag : Nat) (seq : Bool) (st : FilterState) (s : State) :
    (filterStep src tag seq st s).fixed = s.fixed := rfl

@[simp] theorem filterPark_fixed (who : Requester) (parked : Bool) (s : State) :
    (filterPark who parked s).fixed = s.fixed := by
  simp only [filterPark]
  (repeat' split) <;> simp

@[simp] theorem filterDone_fixed (m : Msg) (s : State) :
    (filterDone m s).fixed = s.fixed := by
  simp only [filterDone]
  (repeat' split) <;> simp

@[simp] theorem setSlot_fixed (t : Nat) (x : Slot) (s : State) :
    (setSlot t x s).fixed = s.fixed := by
  simp only [setSlot]
  (repeat' split) <;> simp

@[simp] theorem addAsk_fixed (a : Ask) (s : State) :
    (addAsk a s).fixed = s.fixed := by
  simp only [addAsk]
  (repeat' split) <;> simp

@[simp] theorem queueCopy_fixed (t : Nat) (s : State) :
    (queueCopy t s).fixed = s.fixed := by
  simp only [queueCopy]
  (repeat' split) <;> simp

@[simp] theorem withdrawCopy_fixed (t : Nat) (s : State) :
    (withdrawCopy t s).fixed = s.fixed := by
  simp only [withdrawCopy]
  (repeat' split) <;> simp

@[simp] theorem endSlot_fixed (t : Nat) (s : State) :
    (endSlot t s).fixed = s.fixed := by
  simp only [endSlot]
  (repeat' split) <;> simp

@[simp] theorem handOff_fixed (t : Nat) (s : State) :
    (handOff t s).fixed = s.fixed := by
  simp only [handOff]
  (repeat' split) <;> simp

@[simp] theorem completeRead_fixed (data : Word) (err : Bool) (s : State) :
    (completeRead data err s).fixed = s.fixed := by
  simp only [completeRead]
  (repeat' split) <;> simp

@[simp] theorem releaseWrite_fixed (s : State) :
    (releaseWrite s).fixed = s.fixed := by
  simp only [releaseWrite]
  (repeat' split) <;> simp

@[simp] theorem dropEntry_fixed (addr : Nat) (s : State) :
    (dropEntry addr s).fixed = s.fixed := by
  simp only [dropEntry]
  (repeat' split) <;> simp

@[simp] theorem secondPhase_fixed (addr : Nat) (s : State) :
    (secondPhase addr s).fixed = s.fixed := by
  simp only [secondPhase]
  (repeat' split) <;> simp

@[simp] theorem finishRead_fixed (e : LocalEntry) (w : Word) (s : State) :
    (finishRead e w s).fixed = s.fixed := by
  simp only [finishRead]
  (repeat' split) <;> simp

@[simp] theorem finishReadLost_fixed (e : LocalEntry) (s : State) :
    (finishReadLost e s).fixed = s.fixed := by
  simp only [finishReadLost]
  (repeat' split) <;> simp

@[simp] theorem finishWrite_fixed (e : LocalEntry) (s : State) :
    (finishWrite e s).fixed = s.fixed := by
  simp only [finishWrite]
  (repeat' split) <;> simp

@[simp] theorem finishWriteLost_fixed (e : LocalEntry) (s : State) :
    (finishWriteLost e s).fixed = s.fixed := by
  simp only [finishWriteLost]
  (repeat' split) <;> simp

@[simp] theorem readOutcome_fixed (e : LocalEntry) (o : Outcome) (s : State) :
    (readOutcome e o s).fixed = s.fixed := by
  simp only [readOutcome]
  (repeat' split) <;> simp

@[simp] theorem writeOutcome_fixed (e : LocalEntry) (o : Outcome) (s : State) :
    (writeOutcome e o s).fixed = s.fixed := by
  simp only [writeOutcome]
  (repeat' split) <;> simp

@[simp] theorem portOutcome_fixed (addr : Nat) (o : Outcome) (s : State) :
    (portOutcome addr o s).fixed = s.fixed := by
  simp only [portOutcome]
  (repeat' split) <;> simp

@[simp] theorem ownReply_fixed (t : Nat) (m : Msg) (s : State) :
    (ownReply t m s).fixed = s.fixed := by
  simp only [ownReply]
  (repeat' split) <;> simp

@[simp] theorem emitReply_fixed (m : Msg) (s : State) :
    (emitReply m s).fixed = s.fixed := by
  simp only [emitReply]
  (repeat' split) <;> simp

@[simp] theorem tellRequester_fixed (who : Requester) (m : Msg) (s : State) :
    (tellRequester who m s).fixed = s.fixed := by
  simp only [tellRequester]
  (repeat' split) <;> simp

@[simp] theorem holdRequester_fixed (who : Requester) (s : State) :
    (holdRequester who s).fixed = s.fixed := by
  simp only [holdRequester]
  (repeat' split) <;> simp

@[simp] theorem answerHead_fixed (m : Msg) (s : State) :
    (answerHead m s).fixed = s.fixed := by
  simp only [answerHead]
  (repeat' split) <;> simp

@[simp] theorem firstAnswer_fixed (who : Requester) (m : Msg) (s : State) :
    (firstAnswer who m s).fixed = s.fixed := by
  simp only [firstAnswer]
  (repeat' split) <;> simp

@[simp] theorem settle_fixed (s : State) :
    (settle s).fixed = s.fixed := by
  simp only [settle]
  (repeat' split) <;> simp

@[simp] theorem takePlace_fixed (p : Place) (s : State) :
    (takePlace p s).fixed = s.fixed := by
  simp only [takePlace]
  (repeat' split) <;> simp

@[simp] theorem mapOp_fixed (st : Nat) (g : Op → Op) (s : State) :
    (mapOp st g s).fixed = s.fixed := by
  simp only [mapOp]
  (repeat' split) <;> simp

@[simp] theorem freePlace_fixed (p : Place → Bool) (s : State) :
    (freePlace p s).fixed = s.fixed := by
  simp only [freePlace]
  (repeat' split) <;> simp

@[simp] theorem movePlace_fixed (p : Place → Bool) (g : Place → Place) (s : State) :
    (movePlace p g s).fixed = s.fixed := by
  simp only [movePlace]
  (repeat' split) <;> simp

@[simp] theorem listRecompute_fixed (st o : Nat) (s : State) :
    (listRecompute st o s).fixed = s.fixed := by
  simp only [listRecompute]
  (repeat' split) <;> simp

@[simp] theorem goActive_fixed (s : State) :
    (goActive s).fixed = s.fixed := by
  simp only [goActive]
  (repeat' split) <;> simp

@[simp] theorem fillClaim_fixed (st : Nat) (s : State) :
    (fillClaim st s).fixed = s.fixed := by
  simp only [fillClaim]
  (repeat' split) <;> simp

@[simp] theorem fillAdvance_fixed (s : State) :
    (fillAdvance s).fixed = s.fixed := by
  simp only [fillAdvance]
  (repeat' split) <;> simp

@[simp] theorem offerRecompute_fixed (st : Nat) (s : State) :
    (offerRecompute st s).fixed = s.fixed := by
  simp only [offerRecompute]
  (repeat' split) <;> simp

@[simp] theorem askRebuild_fixed (st : Nat) (s : State) :
    (askRebuild st s).fixed = s.fixed := by
  simp only [askRebuild]
  (repeat' split) <;> simp

@[simp] theorem beginStripe_fixed (st : Nat) (s : State) :
    (beginStripe st s).fixed = s.fixed := by
  simp only [beginStripe]
  (repeat' split) <;> simp

@[simp] theorem rebuildComplete_fixed (s : State) :
    (rebuildComplete s).fixed = s.fixed := by
  simp only [rebuildComplete]
  (repeat' split) <;> simp

@[simp] theorem rebuildAdvance_fixed (s : State) :
    (rebuildAdvance s).fixed = s.fixed := by
  simp only [rebuildAdvance]
  (repeat' split) <;> simp

@[simp] theorem storeUnit_fixed (ws : List (Option Word)) (s : State) :
    (storeUnit ws s).fixed = s.fixed := by
  simp only [storeUnit]
  (repeat' split) <;> simp

@[simp] theorem sweepOutcome_fixed (o : Outcome) (s : State) :
    (sweepOutcome o s).fixed = s.fixed := by
  simp only [sweepOutcome]
  (repeat' split) <;> simp

@[simp] theorem auditAdvance_fixed (s : State) :
    (auditAdvance s).fixed = s.fixed := by
  simp only [auditAdvance]
  (repeat' split) <;> simp

@[simp] theorem auditEnd_fixed (r : AuditResult) (s : State) :
    (auditEnd r s).fixed = s.fixed := by
  simp only [auditEnd]
  (repeat' split) <;> simp

@[simp] theorem admitAudit_fixed (urgent : Bool) (s : State) :
    (admitAudit urgent s).fixed = s.fixed := by
  simp only [admitAudit]
  (repeat' split) <;> simp

@[simp] theorem auditAttempt_fixed (s : State) :
    (auditAttempt s).fixed = s.fixed := by
  simp only [auditAttempt]
  (repeat' split) <;> simp

@[simp] theorem withdrawUrgent_fixed (s : State) :
    (withdrawUrgent s).fixed = s.fixed := by
  simp only [withdrawUrgent]
  (repeat' split) <;> simp

@[simp] theorem mapAcc_fixed (i : Nat) (g : Accum → Accum) (s : State) :
    (mapAcc i g s).fixed = s.fixed := by
  simp only [mapAcc]
  (repeat' split) <;> simp

@[simp] theorem askNext_fixed (st : Nat) (s : State) :
    (askNext st s).fixed = s.fixed := by
  simp only [askNext]
  (repeat' split) <;> simp

@[simp] theorem beginStep_fixed (st : Nat) (step : OpStep) (asks : List Ask) (claims : List Claim) (s : State) :
    (beginStep st step asks claims s).fixed = s.fixed := by
  simp only [beginStep]
  rw [askNext_fixed, foldl_fixed _ (fun s c => dueClaim_fixed .home c s), mapOp_fixed]

@[simp] theorem closeOp_fixed (st : Nat) (s : State) :
    (closeOp st s).fixed = s.fixed := by
  simp only [closeOp]
  (repeat' split) <;> simp

@[simp] theorem closeAudit_fixed (st : Nat) (r : AuditResult) (s : State) :
    (closeAudit st r s).fixed = s.fixed := by
  simp only [closeAudit]
  (repeat' split) <;> simp

@[simp] theorem sendAnswers_fixed (st : Nat) (op : Op) (s : State) :
    (sendAnswers st op s).fixed = s.fixed := by
  simp only [sendAnswers]
  rw [foldl_fixed _ (fun s p => tellRequester_fixed ..), State.setHome_fixed]

@[simp] theorem replyOp_fixed (st : Nat) (s : State) :
    (replyOp st s).fixed = s.fixed := by
  simp only [replyOp]
  (repeat' split) <;> simp

@[simp] theorem decideRecover_fixed (st : Nat) (op : Op) (s : State) :
    (decideRecover st op s).fixed = s.fixed := by
  simp only [decideRecover]
  (repeat' split) <;> simp

@[simp] theorem decideMerge_fixed (st : Nat) (op : Op) (s : State) :
    (decideMerge st op s).fixed = s.fixed := by
  simp only [decideMerge]
  (repeat' split) <;> simp

@[simp] theorem decideDegraded_fixed (st : Nat) (op : Op) (s : State) :
    (decideDegraded st op s).fixed = s.fixed := by
  simp only [decideDegraded]
  (repeat' split) <;> simp

@[simp] theorem decideRecompute_fixed (st : Nat) (op : Op) (s : State) :
    (decideRecompute st op s).fixed = s.fixed := by
  simp only [decideRecompute]
  (repeat' split) <;> simp

@[simp] theorem decideRebuild_fixed (st : Nat) (op : Op) (s : State) :
    (decideRebuild st op s).fixed = s.fixed := by
  simp only [decideRebuild]
  (repeat' split) <;> simp

@[simp] theorem auditOffset_fixed (st : Nat) (repair : List Nat) (s : State) :
    (auditOffset st repair s).fixed = s.fixed := by
  simp only [auditOffset]
  (repeat' split) <;> simp

@[simp] theorem decideFold_fixed (st : Nat) (op : Op) (s : State) :
    (decideFold st op s).fixed = s.fixed := by
  simp only [decideFold]
  (repeat' split) <;> simp

@[simp] theorem decideOffset_fixed (st : Nat) (op : Op) (s : State) :
    (decideOffset st op s).fixed = s.fixed := by
  simp only [decideOffset]
  (repeat' split) <;> simp

@[simp] theorem opDecide_fixed (st : Nat) (op : Op) (s : State) :
    (opDecide st op s).fixed = s.fixed := by
  simp only [opDecide]
  (repeat' split) <;> simp

@[simp] theorem opAdvance_fixed (st : Nat) (s : State) :
    (opAdvance st s).fixed = s.fixed := by
  simp only [opAdvance]
  (repeat' split) <;> simp

@[simp] theorem stopAudit_fixed (st : Nat) (s : State) :
    (stopAudit st s).fixed = s.fixed := by
  simp only [stopAudit]
  (repeat' split) <;> simp

@[simp] theorem recordResult_fixed (st k : Nat) (r : MemberResult) (s : State) :
    (recordResult st k r s).fixed = s.fixed := by
  simp only [recordResult]
  (repeat' split) <;> simp

@[simp] theorem memberUnavailable_fixed (st k : Nat) (s : State) : (memberUnavailable st k s).fixed = s.fixed := by
  simp [memberUnavailable]

@[simp] theorem accumulate_fixed (st first : Nat) (ws : List (Option Word)) (s : State) :
    (accumulate st first ws s).fixed = s.fixed := by
  simp only [accumulate]
  (repeat' split) <;> simp

@[simp] theorem recordOutcome_fixed (st : Nat) (kind : Kind) (f : Fields) (o : Outcome) (s : State) :
    (recordOutcome st kind f o s).fixed = s.fixed := by
  simp only [recordOutcome]
  (repeat' split) <;> simp

@[simp] theorem opOutcome_fixed (st : Nat) (kind : Kind) (f : Fields) (o : Outcome) (s : State) :
    (opOutcome st kind f o s).fixed = s.fixed := by
  simp only [opOutcome]
  (repeat' split) <;> simp

@[simp] theorem opParityRead_fixed (st first : Nat) (ws : List BankWord) (s : State) :
    (opParityRead st first ws s).fixed = s.fixed := by
  simp only [opParityRead]
  (repeat' split) <;> simp

@[simp] theorem opParityWritten_fixed (st : Nat) (s : State) :
    (opParityWritten st s).fixed = s.fixed := by
  simp only [opParityWritten]
  (repeat' split) <;> simp

@[simp] theorem startWork_fixed (st : Nat) (op : Op) (s : State) :
    (startWork st op s).fixed = s.fixed := by
  simp only [startWork]
  (repeat' split) <;> simp

@[simp] theorem startOp_fixed (st acc : Nat) (s : State) :
    (startOp st acc s).fixed = s.fixed := by
  simp only [startOp]
  (repeat' split) <;> simp

@[simp] theorem settleWrite_fixed (pred : Place → Bool) (p : Place) (status : Status) (s : State) :
    (settleWrite pred p status s).fixed = s.fixed := by
  simp only [settleWrite]
  (repeat' split) <;> simp

@[simp] theorem toAnswer_fixed (pred : Place → Bool) (p : Place) (s : State) :
    (toAnswer pred p s).fixed = s.fixed := by
  simp only [toAnswer]
  (repeat' split) <;> simp

@[simp] theorem toConversion_fixed (pred : Place → Bool) (k : WorkKind) (p : Place) (s : State) :
    (toConversion pred k p s).fixed = s.fixed := by
  simp only [toConversion]
  (repeat' split) <;> simp

@[simp] theorem updateOutcome_fixed (pred : Place → Bool) (p : Place) (o : Outcome) (s : State) :
    (updateOutcome pred p o s).fixed = s.fixed := by
  simp only [updateOutcome]
  (repeat' split) <;> simp

@[simp] theorem forwardOutcome_fixed (pred : Place → Bool) (p : Place) (o : Outcome) (s : State) :
    (forwardOutcome pred p o s).fixed = s.fixed := by
  simp only [forwardOutcome]
  (repeat' split) <;> simp

@[simp] theorem memberOutcome_fixed (st tag : Nat) (kind : Kind) (o : Outcome) (s : State) :
    (memberOutcome st tag kind o s).fixed = s.fixed := by
  simp only [memberOutcome]
  (repeat' split) <;> simp

@[simp] theorem deltaApplied_fixed (st o : Nat) (old : BankWord) (s : State) :
    (deltaApplied st o old s).fixed = s.fixed := by
  simp only [deltaApplied]
  (repeat' split) <;> simp

@[simp] theorem repairNext_fixed (s : State) :
    (repairNext s).fixed = s.fixed := by
  simp only [repairNext]
  (repeat' split) <;> simp

@[simp] theorem repairOffer_fixed (st o : Nat) (s : State) :
    (repairOffer st o s).fixed = s.fixed := by
  simp only [repairOffer]
  (repeat' split) <;> simp

@[simp] theorem repairOutcome_fixed (o : Outcome) (s : State) :
    (repairOutcome o s).fixed = s.fixed := by
  simp only [repairOutcome]
  (repeat' split) <;> simp

@[simp] theorem handOutcome_fixed (t : Nat) (x : Slot) (o : Outcome) (s : State) :
    (handOutcome t x o s).fixed = s.fixed := by
  simp only [handOutcome]
  (repeat' split) <;> simp

@[simp] theorem finishSlot_fixed (t : Nat) (o : Outcome) (s : State) :
    (finishSlot t o s).fixed = s.fixed := by
  simp only [finishSlot]
  (repeat' split) <;> simp

@[simp] theorem dropReplies_fixed (j : Nat) (s : State) :
    (dropReplies j s).fixed = s.fixed := by
  simp only [dropReplies]
  (repeat' split) <;> simp

@[simp] theorem loseAtHome_fixed (j : Nat) (s : State) :
    (loseAtHome j s).fixed = s.fixed := by
  simp only [loseAtHome]
  rw [foldl_fixed _ (fun s p => closeOp_fixed ..), State.setHome_fixed]

@[simp] theorem dropInbound_fixed (j : Nat) (s : State) :
    (dropInbound j s).fixed = s.fixed := by
  simp only [dropInbound]
  (repeat' split) <;> simp

@[simp] theorem handEnded_fixed (ended : List (Nat × Slot)) (s : State) :
    (handEnded ended s).fixed = s.fixed := by
  simp only [handEnded]
  rw [foldl_fixed _ (fun s p => handOutcome_fixed ..)]

@[simp] theorem viewDown_fixed (j : Nat) (v : ViewEntry) (s : State) : (viewDown j v s).1.fixed = s.fixed := by
  have h (g : State → State) (hg : ∀ s, (g s).fixed = s.fixed) (b : Bool) (s : State) :
      (if b then g s else s).fixed = s.fixed := by split <;> simp [hg]
  simp only [viewDown]
  rw [h _ withdrawUrgent_fixed]
  simp only [causeView_fixed, dropInbound_fixed, State.setFilter_fixed, loseAtHome_fixed]
  rw [foldl_fixed _ (fun s p => endSlot_fixed ..)]
  simp

@[simp] theorem reportUnreachable_fixed (j : Nat) (s : State) :
    (reportUnreachable j s).fixed = s.fixed := by
  simp only [reportUnreachable]
  (repeat' split) <;> simp

@[simp] theorem startJoining_fixed (mode : JoinMode) (s : State) :
    (startJoining mode s).fixed = s.fixed := by
  simp only [startJoining]
  (repeat' split) <;> simp

@[simp] theorem joinDecision_fixed (s : State) :
    (joinDecision s).fixed = s.fixed := by
  simp only [joinDecision]
  (repeat' split) <;> simp

@[simp] theorem expelEntry_fixed (s : State) (e : LocalEntry) :
    (expelEntry s e).fixed = s.fixed := by
  simp only [expelEntry]
  (repeat' split) <;> simp

@[simp] theorem expelEntries_fixed (s : State) :
    (expelEntries s).fixed = s.fixed := by
  simp only [expelEntries]
  rw [State.setPort_fixed, foldl_fixed _ (fun s p => expelEntry_fixed ..)]

/-- Expulsion leaves alone all of it but what the claim in progress writes (R20, R62). -/
theorem expel_fixed (s : State) : (expel s).fixed = (finishClaim s).fixed := by
  simp only [expel, startJoining_fixed]
  rw [setBank_fixed (by simp [expelBank])]
  simp


end Sys2Proof.Machine
end

