-- ==== Sys2Proof/Laws/Frames.lean ====
section
/-! SUPPORT. What each shared operation leaves alone, one lemma for each operation: the blocks of the state it does not touch.
With `Laws/Fixed` these say where an operation can act at all. -/

namespace Sys2Proof.Machine

@[simp] theorem foldl_mem {α : Type} (g : State → α → State) (hg : ∀ s x, (g s x).mem = s.mem) (l : List α) (s : State) :
    (l.foldl g s).mem = s.mem := by
  induction l generalizing s with
  | nil => rfl
  | cons x l ih => exact (ih (g s x)).trans (hg s x)

@[simp] theorem foldl_link {α : Type} (g : State → α → State) (hg : ∀ s x, (g s x).link = s.link) (l : List α) (s : State) :
    (l.foldl g s).link = s.link := by
  induction l generalizing s with
  | nil => rfl
  | cons x l ih => exact (ih (g s x)).trans (hg s x)

@[simp] theorem foldl_tu {α : Type} (g : State → α → State) (hg : ∀ s x, (g s x).tu = s.tu) (l : List α) (s : State) :
    (l.foldl g s).tu = s.tu := by
  induction l generalizing s with
  | nil => rfl
  | cons x l ih => exact (ih (g s x)).trans (hg s x)

@[simp] theorem foldl_filter {α : Type} (g : State → α → State) (hg : ∀ s x, (g s x).filter = s.filter) (l : List α) (s : State) :
    (l.foldl g s).filter = s.filter := by
  induction l generalizing s with
  | nil => rfl
  | cons x l ih => exact (ih (g s x)).trans (hg s x)

@[simp] theorem foldl_holder {α : Type} (g : State → α → State) (hg : ∀ s x, (g s x).holder = s.holder) (l : List α) (s : State) :
    (l.foldl g s).holder = s.holder := by
  induction l generalizing s with
  | nil => rfl
  | cons x l ih => exact (ih (g s x)).trans (hg s x)

@[simp] theorem foldl_home {α : Type} (g : State → α → State) (hg : ∀ s x, (g s x).home = s.home) (l : List α) (s : State) :
    (l.foldl g s).home = s.home := by
  induction l generalizing s with
  | nil => rfl
  | cons x l ih => exact (ih (g s x)).trans (hg s x)

@[simp] theorem foldl_sweep {α : Type} (g : State → α → State) (hg : ∀ s x, (g s x).sweep = s.sweep) (l : List α) (s : State) :
    (l.foldl g s).sweep = s.sweep := by
  induction l generalizing s with
  | nil => rfl
  | cons x l ih => exact (ih (g s x)).trans (hg s x)

@[simp] theorem foldl_port {α : Type} (g : State → α → State) (hg : ∀ s x, (g s x).port = s.port) (l : List α) (s : State) :
    (l.foldl g s).port = s.port := by
  induction l generalizing s with
  | nil => rfl
  | cons x l ih => exact (ih (g s x)).trans (hg s x)

@[simp] theorem foldl_counters {α : Type} (g : State → α → State) (hg : ∀ s x, (g s x).counters = s.counters) (l : List α) (s : State) :
    (l.foldl g s).counters = s.counters := by
  induction l generalizing s with
  | nil => rfl
  | cons x l ih => exact (ih (g s x)).trans (hg s x)

@[simp] theorem foldl_causes {α : Type} (g : State → α → State) (hg : ∀ s x, (g s x).causes = s.causes) (l : List α) (s : State) :
    (l.foldl g s).causes = s.causes := by
  induction l generalizing s with
  | nil => rfl
  | cons x l ih => exact (ih (g s x)).trans (hg s x)

@[simp] theorem foldl_bank {α : Type} (g : State → α → State) (hg : ∀ s x, (g s x).bank = s.bank) (l : List α) (s : State) :
    (l.foldl g s).bank = s.bank := by
  induction l generalizing s with
  | nil => rfl
  | cons x l ih => exact (ih (g s x)).trans (hg s x)

@[simp] theorem countRecovered_keeps (s : State) :
    (countRecovered s).mem = s.mem ∧ (countRecovered s).link = s.link ∧ (countRecovered s).tu = s.tu ∧
    (countRecovered s).filter = s.filter ∧ (countRecovered s).holder = s.holder ∧ (countRecovered s).home = s.home ∧
    (countRecovered s).sweep = s.sweep ∧ (countRecovered s).port = s.port ∧ (countRecovered s).causes = s.causes ∧
    (countRecovered s).bank = s.bank := by
  simp only [countRecovered]
  (repeat' split) <;> simp

@[simp] theorem countLost_keeps (k : Nat) (s : State) :
    (countLost k s).mem = s.mem ∧ (countLost k s).link = s.link ∧ (countLost k s).tu = s.tu ∧
    (countLost k s).filter = s.filter ∧ (countLost k s).holder = s.holder ∧ (countLost k s).home = s.home ∧
    (countLost k s).sweep = s.sweep ∧ (countLost k s).port = s.port ∧ (countLost k s).causes = s.causes ∧
    (countLost k s).bank = s.bank := by
  simp only [countLost]
  (repeat' split) <;> simp

@[simp] theorem countResync_keeps (s : State) :
    (countResync s).mem = s.mem ∧ (countResync s).link = s.link ∧ (countResync s).tu = s.tu ∧
    (countResync s).filter = s.filter ∧ (countResync s).holder = s.holder ∧ (countResync s).home = s.home ∧
    (countResync s).sweep = s.sweep ∧ (countResync s).port = s.port ∧ (countResync s).causes = s.causes ∧
    (countResync s).bank = s.bank := by
  simp only [countResync]
  (repeat' split) <;> simp

@[simp] theorem countDrops_keeps (k : Nat) (s : State) :
    (countDrops k s).mem = s.mem ∧ (countDrops k s).link = s.link ∧ (countDrops k s).tu = s.tu ∧
    (countDrops k s).filter = s.filter ∧ (countDrops k s).holder = s.holder ∧ (countDrops k s).home = s.home ∧
    (countDrops k s).sweep = s.sweep ∧ (countDrops k s).port = s.port ∧ (countDrops k s).causes = s.causes ∧
    (countDrops k s).bank = s.bank := by
  simp only [countDrops]
  (repeat' split) <;> simp

@[simp] theorem countBusy_keeps (s : State) :
    (countBusy s).mem = s.mem ∧ (countBusy s).link = s.link ∧ (countBusy s).tu = s.tu ∧
    (countBusy s).filter = s.filter ∧ (countBusy s).holder = s.holder ∧ (countBusy s).home = s.home ∧
    (countBusy s).sweep = s.sweep ∧ (countBusy s).port = s.port ∧ (countBusy s).causes = s.causes ∧
    (countBusy s).bank = s.bank := by
  simp only [countBusy]
  (repeat' split) <;> simp

@[simp] theorem causeView_keeps (b : Bool) (s : State) :
    (causeView b s).mem = s.mem ∧ (causeView b s).link = s.link ∧ (causeView b s).tu = s.tu ∧
    (causeView b s).filter = s.filter ∧ (causeView b s).holder = s.holder ∧ (causeView b s).home = s.home ∧
    (causeView b s).sweep = s.sweep ∧ (causeView b s).port = s.port ∧ (causeView b s).counters = s.counters ∧
    (causeView b s).bank = s.bank := by
  simp only [causeView]
  (repeat' split) <;> simp

@[simp] theorem causeAudit_keeps (s : State) :
    (causeAudit s).mem = s.mem ∧ (causeAudit s).link = s.link ∧ (causeAudit s).tu = s.tu ∧
    (causeAudit s).filter = s.filter ∧ (causeAudit s).holder = s.holder ∧ (causeAudit s).home = s.home ∧
    (causeAudit s).sweep = s.sweep ∧ (causeAudit s).port = s.port ∧ (causeAudit s).counters = s.counters ∧
    (causeAudit s).bank = s.bank := by
  simp only [causeAudit]
  (repeat' split) <;> simp

@[simp] theorem causeRebuildDone_keeps (s : State) :
    (causeRebuildDone s).mem = s.mem ∧ (causeRebuildDone s).link = s.link ∧ (causeRebuildDone s).tu = s.tu ∧
    (causeRebuildDone s).filter = s.filter ∧ (causeRebuildDone s).holder = s.holder ∧
    (causeRebuildDone s).home = s.home ∧ (causeRebuildDone s).sweep = s.sweep ∧ (causeRebuildDone s).port = s.port ∧
    (causeRebuildDone s).counters = s.counters ∧ (causeRebuildDone s).bank = s.bank := by
  simp only [causeRebuildDone]
  (repeat' split) <;> simp

@[simp] theorem writeFault_keeps (addr : Nat) (k : PortFault) (s : State) :
    (writeFault addr k s).mem = s.mem ∧ (writeFault addr k s).link = s.link ∧ (writeFault addr k s).tu = s.tu ∧
    (writeFault addr k s).filter = s.filter ∧ (writeFault addr k s).holder = s.holder ∧
    (writeFault addr k s).home = s.home ∧ (writeFault addr k s).sweep = s.sweep ∧ (writeFault addr k s).bank = s.bank := by
  simp only [writeFault]
  (repeat' split) <;> simp

@[simp] theorem clearCauses_keeps (lanes : Lanes) (data : Word) (s : State) :
    (clearCauses lanes data s).mem = s.mem ∧ (clearCauses lanes data s).link = s.link ∧
    (clearCauses lanes data s).tu = s.tu ∧ (clearCauses lanes data s).filter = s.filter ∧
    (clearCauses lanes data s).holder = s.holder ∧ (clearCauses lanes data s).home = s.home ∧
    (clearCauses lanes data s).sweep = s.sweep ∧ (clearCauses lanes data s).counters = s.counters ∧
    (clearCauses lanes data s).bank = s.bank := by
  simp only [clearCauses]
  (repeat' split) <;> simp

@[simp] theorem writeEnables_keeps (lanes : Lanes) (data : Word) (s : State) :
    (writeEnables lanes data s).mem = s.mem ∧ (writeEnables lanes data s).link = s.link ∧
    (writeEnables lanes data s).tu = s.tu ∧ (writeEnables lanes data s).filter = s.filter ∧
    (writeEnables lanes data s).holder = s.holder ∧ (writeEnables lanes data s).home = s.home ∧
    (writeEnables lanes data s).sweep = s.sweep ∧ (writeEnables lanes data s).port = s.port ∧
    (writeEnables lanes data s).counters = s.counters ∧ (writeEnables lanes data s).causes = s.causes ∧
    (writeEnables lanes data s).bank = s.bank := by
  simp only [writeEnables]
  (repeat' split) <;> simp

@[simp] theorem dueClaim_keeps (who : Claimant) (c : Claim) (s : State) :
    (dueClaim who c s).mem = s.mem ∧ (dueClaim who c s).link = s.link ∧ (dueClaim who c s).tu = s.tu ∧
    (dueClaim who c s).filter = s.filter ∧ (dueClaim who c s).holder = s.holder ∧ (dueClaim who c s).home = s.home ∧
    (dueClaim who c s).sweep = s.sweep ∧ (dueClaim who c s).port = s.port ∧ (dueClaim who c s).counters = s.counters ∧
    (dueClaim who c s).causes = s.causes := by
  simp only [dueClaim]
  (repeat' split) <;> simp

@[simp] theorem runClaim_keeps (c : Claim) (s : State) :
    (runClaim c s).mem = s.mem ∧ (runClaim c s).link = s.link ∧ (runClaim c s).tu = s.tu ∧
    (runClaim c s).filter = s.filter ∧ (runClaim c s).holder = s.holder ∧ (runClaim c s).home = s.home ∧
    (runClaim c s).sweep = s.sweep ∧ (runClaim c s).port = s.port ∧ (runClaim c s).causes = s.causes := by
  simp [runClaim]

@[simp] theorem finishClaim_keeps (s : State) :
    (finishClaim s).mem = s.mem ∧ (finishClaim s).link = s.link ∧ (finishClaim s).tu = s.tu ∧
    (finishClaim s).filter = s.filter ∧ (finishClaim s).holder = s.holder ∧ (finishClaim s).home = s.home ∧
    (finishClaim s).sweep = s.sweep ∧ (finishClaim s).port = s.port ∧ (finishClaim s).causes = s.causes := by
  simp only [finishClaim]
  split <;> simp

@[simp] theorem setView_keeps (j : Nat) (v : ViewEntry) (s : State) :
    (setView j v s).link = s.link ∧ (setView j v s).tu = s.tu ∧ (setView j v s).filter = s.filter ∧
    (setView j v s).holder = s.holder ∧ (setView j v s).home = s.home ∧ (setView j v s).sweep = s.sweep ∧
    (setView j v s).port = s.port ∧ (setView j v s).counters = s.counters ∧ (setView j v s).causes = s.causes ∧
    (setView j v s).bank = s.bank := by
  simp only [setView]
  (repeat' split) <;> simp

@[simp] theorem setOwnState_keeps (st : OwnState) (s : State) :
    (setOwnState st s).link = s.link ∧ (setOwnState st s).tu = s.tu ∧ (setOwnState st s).filter = s.filter ∧
    (setOwnState st s).holder = s.holder ∧ (setOwnState st s).home = s.home ∧ (setOwnState st s).sweep = s.sweep ∧
    (setOwnState st s).port = s.port ∧ (setOwnState st s).counters = s.counters ∧
    (setOwnState st s).causes = s.causes ∧ (setOwnState st s).bank = s.bank := by
  simp only [setOwnState]
  (repeat' split) <;> simp

@[simp] theorem withdraw_keeps (sel : OutSel) (p : OutMsg → Bool) (s : State) :
    (withdraw sel p s).mem = s.mem ∧ (withdraw sel p s).tu = s.tu ∧ (withdraw sel p s).filter = s.filter ∧
    (withdraw sel p s).holder = s.holder ∧ (withdraw sel p s).home = s.home ∧ (withdraw sel p s).sweep = s.sweep ∧
    (withdraw sel p s).port = s.port ∧ (withdraw sel p s).counters = s.counters ∧
    (withdraw sel p s).causes = s.causes ∧ (withdraw sel p s).bank = s.bank := by
  simp only [withdraw]
  (repeat' split) <;> simp

@[simp] theorem waitHead_keeps (s : State) :
    (waitHead s).mem = s.mem ∧ (waitHead s).tu = s.tu ∧ (waitHead s).filter = s.filter ∧
    (waitHead s).holder = s.holder ∧ (waitHead s).home = s.home ∧ (waitHead s).sweep = s.sweep ∧
    (waitHead s).port = s.port ∧ (waitHead s).counters = s.counters ∧ (waitHead s).causes = s.causes ∧
    (waitHead s).bank = s.bank := by
  simp only [waitHead]
  (repeat' split) <;> simp

@[simp] theorem popInbound_keeps (s : State) :
    (popInbound s).mem = s.mem ∧ (popInbound s).tu = s.tu ∧ (popInbound s).filter = s.filter ∧
    (popInbound s).holder = s.holder ∧ (popInbound s).home = s.home ∧ (popInbound s).sweep = s.sweep ∧
    (popInbound s).port = s.port ∧ (popInbound s).counters = s.counters ∧ (popInbound s).causes = s.causes ∧
    (popInbound s).bank = s.bank := by
  simp only [popInbound]
  (repeat' split) <;> simp

@[simp] theorem pushReply_keeps (m : OutMsg) (s : State) :
    (pushReply m s).mem = s.mem ∧ (pushReply m s).tu = s.tu ∧ (pushReply m s).filter = s.filter ∧
    (pushReply m s).holder = s.holder ∧ (pushReply m s).home = s.home ∧ (pushReply m s).sweep = s.sweep ∧
    (pushReply m s).port = s.port ∧ (pushReply m s).counters = s.counters ∧ (pushReply m s).causes = s.causes ∧
    (pushReply m s).bank = s.bank := by
  simp only [pushReply]
  (repeat' split) <;> simp

@[simp] theorem queueNotice_keeps (n : Msg) (s : State) :
    (queueNotice n s).mem = s.mem ∧ (queueNotice n s).tu = s.tu ∧ (queueNotice n s).filter = s.filter ∧
    (queueNotice n s).holder = s.holder ∧ (queueNotice n s).home = s.home ∧ (queueNotice n s).sweep = s.sweep ∧
    (queueNotice n s).port = s.port ∧ (queueNotice n s).counters = s.counters ∧ (queueNotice n s).causes = s.causes ∧
    (queueNotice n s).bank = s.bank := by
  simp only [queueNotice]
  (repeat' split) <;> simp

@[simp] theorem filterTake_keeps (m : Msg) (s : State) :
    (filterTake m s).mem = s.mem ∧ (filterTake m s).link = s.link ∧ (filterTake m s).tu = s.tu ∧
    (filterTake m s).holder = s.holder ∧ (filterTake m s).home = s.home ∧ (filterTake m s).sweep = s.sweep ∧
    (filterTake m s).port = s.port ∧ (filterTake m s).counters = s.counters ∧ (filterTake m s).causes = s.causes ∧
    (filterTake m s).bank = s.bank := by
  simp only [filterTake]
  (repeat' split) <;> simp

@[simp] theorem filterStep_keeps (src tag : Nat) (seq : Bool) (st : FilterState) (s : State) :
    (filterStep src tag seq st s).mem = s.mem ∧ (filterStep src tag seq st s).link = s.link ∧
    (filterStep src tag seq st s).tu = s.tu ∧ (filterStep src tag seq st s).holder = s.holder ∧
    (filterStep src tag seq st s).home = s.home ∧ (filterStep src tag seq st s).sweep = s.sweep ∧
    (filterStep src tag seq st s).port = s.port ∧ (filterStep src tag seq st s).counters = s.counters ∧
    (filterStep src tag seq st s).causes = s.causes ∧ (filterStep src tag seq st s).bank = s.bank := by
  simp only [filterStep]
  (repeat' split) <;> simp

@[simp] theorem filterPark_keeps (who : Requester) (parked : Bool) (s : State) :
    (filterPark who parked s).mem = s.mem ∧ (filterPark who parked s).link = s.link ∧
    (filterPark who parked s).tu = s.tu ∧ (filterPark who parked s).holder = s.holder ∧
    (filterPark who parked s).home = s.home ∧ (filterPark who parked s).sweep = s.sweep ∧
    (filterPark who parked s).port = s.port ∧ (filterPark who parked s).counters = s.counters ∧
    (filterPark who parked s).causes = s.causes ∧ (filterPark who parked s).bank = s.bank := by
  simp only [filterPark]
  (repeat' split) <;> simp

@[simp] theorem filterDone_keeps (m : Msg) (s : State) :
    (filterDone m s).mem = s.mem ∧ (filterDone m s).link = s.link ∧ (filterDone m s).tu = s.tu ∧
    (filterDone m s).holder = s.holder ∧ (filterDone m s).home = s.home ∧ (filterDone m s).sweep = s.sweep ∧
    (filterDone m s).port = s.port ∧ (filterDone m s).counters = s.counters ∧ (filterDone m s).causes = s.causes ∧
    (filterDone m s).bank = s.bank := by
  simp only [filterDone]
  (repeat' split) <;> simp

@[simp] theorem setSlot_keeps (t : Nat) (x : Slot) (s : State) :
    (setSlot t x s).mem = s.mem ∧ (setSlot t x s).link = s.link ∧ (setSlot t x s).filter = s.filter ∧
    (setSlot t x s).holder = s.holder ∧ (setSlot t x s).home = s.home ∧ (setSlot t x s).sweep = s.sweep ∧
    (setSlot t x s).port = s.port ∧ (setSlot t x s).counters = s.counters ∧ (setSlot t x s).causes = s.causes ∧
    (setSlot t x s).bank = s.bank := by
  simp only [setSlot]
  (repeat' split) <;> simp

@[simp] theorem addAsk_keeps (a : Ask) (s : State) :
    (addAsk a s).mem = s.mem ∧ (addAsk a s).link = s.link ∧ (addAsk a s).filter = s.filter ∧
    (addAsk a s).holder = s.holder ∧ (addAsk a s).home = s.home ∧ (addAsk a s).sweep = s.sweep ∧
    (addAsk a s).port = s.port ∧ (addAsk a s).counters = s.counters ∧ (addAsk a s).causes = s.causes ∧
    (addAsk a s).bank = s.bank := by
  simp only [addAsk]
  (repeat' split) <;> simp

@[simp] theorem queueCopy_keeps (t : Nat) (s : State) :
    (queueCopy t s).mem = s.mem ∧ (queueCopy t s).filter = s.filter ∧ (queueCopy t s).holder = s.holder ∧
    (queueCopy t s).home = s.home ∧ (queueCopy t s).sweep = s.sweep ∧ (queueCopy t s).port = s.port ∧
    (queueCopy t s).counters = s.counters ∧ (queueCopy t s).causes = s.causes ∧ (queueCopy t s).bank = s.bank := by
  simp only [queueCopy]
  (repeat' split) <;> simp

@[simp] theorem withdrawCopy_keeps (t : Nat) (s : State) :
    (withdrawCopy t s).mem = s.mem ∧ (withdrawCopy t s).tu = s.tu ∧ (withdrawCopy t s).filter = s.filter ∧
    (withdrawCopy t s).holder = s.holder ∧ (withdrawCopy t s).home = s.home ∧ (withdrawCopy t s).sweep = s.sweep ∧
    (withdrawCopy t s).port = s.port ∧ (withdrawCopy t s).counters = s.counters ∧
    (withdrawCopy t s).causes = s.causes ∧ (withdrawCopy t s).bank = s.bank := by
  simp only [withdrawCopy]
  (repeat' split) <;> simp

@[simp] theorem endSlot_keeps (t : Nat) (s : State) :
    (endSlot t s).mem = s.mem ∧ (endSlot t s).filter = s.filter ∧ (endSlot t s).holder = s.holder ∧
    (endSlot t s).home = s.home ∧ (endSlot t s).sweep = s.sweep ∧ (endSlot t s).port = s.port ∧
    (endSlot t s).counters = s.counters ∧ (endSlot t s).causes = s.causes ∧ (endSlot t s).bank = s.bank := by
  simp only [endSlot]
  (repeat' split) <;> simp

@[simp] theorem handOff_keeps (t : Nat) (s : State) :
    (handOff t s).mem = s.mem ∧ (handOff t s).link = s.link ∧ (handOff t s).filter = s.filter ∧
    (handOff t s).sweep = s.sweep ∧ (handOff t s).port = s.port ∧ (handOff t s).counters = s.counters ∧
    (handOff t s).causes = s.causes ∧ (handOff t s).bank = s.bank := by
  simp only [handOff]
  (repeat' split) <;> simp

@[simp] theorem grantSlot_keeps (a : Ask) (t : Nat) (s : State) :
    (grantSlot a t s).1.mem = s.mem ∧ (grantSlot a t s).1.filter = s.filter ∧ (grantSlot a t s).1.sweep = s.sweep ∧
    (grantSlot a t s).1.port = s.port ∧ (grantSlot a t s).1.counters = s.counters ∧
    (grantSlot a t s).1.causes = s.causes ∧ (grantSlot a t s).1.bank = s.bank := by
  simp only [grantSlot]
  (repeat' split) <;> simp

@[simp] theorem completeRead_keeps (data : Word) (err : Bool) (s : State) :
    (completeRead data err s).mem = s.mem ∧ (completeRead data err s).link = s.link ∧
    (completeRead data err s).tu = s.tu ∧ (completeRead data err s).filter = s.filter ∧
    (completeRead data err s).holder = s.holder ∧ (completeRead data err s).home = s.home ∧
    (completeRead data err s).sweep = s.sweep ∧ (completeRead data err s).counters = s.counters ∧
    (completeRead data err s).causes = s.causes ∧ (completeRead data err s).bank = s.bank := by
  simp only [completeRead]
  (repeat' split) <;> simp

@[simp] theorem releaseWrite_keeps (s : State) :
    (releaseWrite s).mem = s.mem ∧ (releaseWrite s).link = s.link ∧ (releaseWrite s).tu = s.tu ∧
    (releaseWrite s).filter = s.filter ∧ (releaseWrite s).holder = s.holder ∧ (releaseWrite s).home = s.home ∧
    (releaseWrite s).sweep = s.sweep ∧ (releaseWrite s).counters = s.counters ∧ (releaseWrite s).causes = s.causes ∧
    (releaseWrite s).bank = s.bank := by
  simp only [releaseWrite]
  (repeat' split) <;> simp

@[simp] theorem dropEntry_keeps (addr : Nat) (s : State) :
    (dropEntry addr s).mem = s.mem ∧ (dropEntry addr s).link = s.link ∧ (dropEntry addr s).tu = s.tu ∧
    (dropEntry addr s).filter = s.filter ∧ (dropEntry addr s).holder = s.holder ∧ (dropEntry addr s).home = s.home ∧
    (dropEntry addr s).sweep = s.sweep ∧ (dropEntry addr s).counters = s.counters ∧
    (dropEntry addr s).causes = s.causes ∧ (dropEntry addr s).bank = s.bank := by
  simp only [dropEntry]
  (repeat' split) <;> simp

@[simp] theorem secondPhase_keeps (addr : Nat) (s : State) :
    (secondPhase addr s).mem = s.mem ∧ (secondPhase addr s).link = s.link ∧ (secondPhase addr s).tu = s.tu ∧
    (secondPhase addr s).filter = s.filter ∧ (secondPhase addr s).holder = s.holder ∧
    (secondPhase addr s).home = s.home ∧ (secondPhase addr s).sweep = s.sweep ∧
    (secondPhase addr s).counters = s.counters ∧ (secondPhase addr s).causes = s.causes ∧
    (secondPhase addr s).bank = s.bank := by
  simp only [secondPhase]
  (repeat' split) <;> simp

@[simp] theorem finishRead_keeps (e : LocalEntry) (w : Word) (s : State) :
    (finishRead e w s).mem = s.mem ∧ (finishRead e w s).link = s.link ∧ (finishRead e w s).tu = s.tu ∧
    (finishRead e w s).filter = s.filter ∧ (finishRead e w s).holder = s.holder ∧ (finishRead e w s).home = s.home ∧
    (finishRead e w s).sweep = s.sweep ∧ (finishRead e w s).counters = s.counters ∧
    (finishRead e w s).causes = s.causes ∧ (finishRead e w s).bank = s.bank := by
  simp only [finishRead]
  (repeat' split) <;> simp

@[simp] theorem finishReadLost_keeps (e : LocalEntry) (s : State) :
    (finishReadLost e s).mem = s.mem ∧ (finishReadLost e s).link = s.link ∧ (finishReadLost e s).tu = s.tu ∧
    (finishReadLost e s).filter = s.filter ∧ (finishReadLost e s).holder = s.holder ∧
    (finishReadLost e s).home = s.home ∧ (finishReadLost e s).sweep = s.sweep ∧
    (finishReadLost e s).causes = s.causes ∧ (finishReadLost e s).bank = s.bank := by
  simp only [finishReadLost]
  (repeat' split) <;> simp

@[simp] theorem finishWrite_keeps (e : LocalEntry) (s : State) :
    (finishWrite e s).mem = s.mem ∧ (finishWrite e s).link = s.link ∧ (finishWrite e s).tu = s.tu ∧
    (finishWrite e s).filter = s.filter ∧ (finishWrite e s).holder = s.holder ∧ (finishWrite e s).home = s.home ∧
    (finishWrite e s).sweep = s.sweep ∧ (finishWrite e s).counters = s.counters ∧
    (finishWrite e s).causes = s.causes ∧ (finishWrite e s).bank = s.bank := by
  simp only [finishWrite]
  (repeat' split) <;> simp

@[simp] theorem finishWriteLost_keeps (e : LocalEntry) (s : State) :
    (finishWriteLost e s).mem = s.mem ∧ (finishWriteLost e s).link = s.link ∧ (finishWriteLost e s).tu = s.tu ∧
    (finishWriteLost e s).filter = s.filter ∧ (finishWriteLost e s).holder = s.holder ∧
    (finishWriteLost e s).home = s.home ∧ (finishWriteLost e s).sweep = s.sweep ∧ (finishWriteLost e s).bank = s.bank := by
  simp only [finishWriteLost]
  (repeat' split) <;> simp

@[simp] theorem readOutcome_keeps (e : LocalEntry) (o : Outcome) (s : State) :
    (readOutcome e o s).mem = s.mem ∧ (readOutcome e o s).link = s.link ∧ (readOutcome e o s).filter = s.filter ∧
    (readOutcome e o s).holder = s.holder ∧ (readOutcome e o s).home = s.home ∧ (readOutcome e o s).sweep = s.sweep ∧
    (readOutcome e o s).causes = s.causes ∧ (readOutcome e o s).bank = s.bank := by
  simp only [readOutcome]
  (repeat' split) <;> simp

@[simp] theorem writeOutcome_keeps (e : LocalEntry) (o : Outcome) (s : State) :
    (writeOutcome e o s).mem = s.mem ∧ (writeOutcome e o s).link = s.link ∧ (writeOutcome e o s).filter = s.filter ∧
    (writeOutcome e o s).holder = s.holder ∧ (writeOutcome e o s).home = s.home ∧
    (writeOutcome e o s).sweep = s.sweep ∧ (writeOutcome e o s).bank = s.bank := by
  simp only [writeOutcome]
  (repeat' split) <;> simp

@[simp] theorem portOutcome_keeps (addr : Nat) (o : Outcome) (s : State) :
    (portOutcome addr o s).mem = s.mem ∧ (portOutcome addr o s).link = s.link ∧
    (portOutcome addr o s).filter = s.filter ∧ (portOutcome addr o s).holder = s.holder ∧
    (portOutcome addr o s).home = s.home ∧ (portOutcome addr o s).sweep = s.sweep ∧
    (portOutcome addr o s).bank = s.bank := by
  simp only [portOutcome]
  (repeat' split) <;> simp

@[simp] theorem ownReply_keeps (t : Nat) (m : Msg) (s : State) :
    (ownReply t m s).mem = s.mem ∧ (ownReply t m s).filter = s.filter ∧ (ownReply t m s).holder = s.holder ∧
    (ownReply t m s).home = s.home ∧ (ownReply t m s).sweep = s.sweep ∧ (ownReply t m s).bank = s.bank := by
  simp only [ownReply]
  (repeat' split) <;> simp

@[simp] theorem emitReply_keeps (m : Msg) (s : State) :
    (emitReply m s).mem = s.mem ∧ (emitReply m s).tu = s.tu ∧ (emitReply m s).holder = s.holder ∧
    (emitReply m s).home = s.home ∧ (emitReply m s).sweep = s.sweep ∧ (emitReply m s).port = s.port ∧
    (emitReply m s).counters = s.counters ∧ (emitReply m s).causes = s.causes ∧ (emitReply m s).bank = s.bank := by
  simp only [emitReply]
  (repeat' split) <;> simp

@[simp] theorem tellRequester_keeps (who : Requester) (m : Msg) (s : State) :
    (tellRequester who m s).mem = s.mem ∧ (tellRequester who m s).holder = s.holder ∧
    (tellRequester who m s).home = s.home ∧ (tellRequester who m s).sweep = s.sweep ∧
    (tellRequester who m s).bank = s.bank := by
  simp only [tellRequester]
  (repeat' split) <;> simp

@[simp] theorem holdRequester_keeps (who : Requester) (s : State) :
    (holdRequester who s).mem = s.mem ∧ (holdRequester who s).holder = s.holder ∧
    (holdRequester who s).home = s.home ∧ (holdRequester who s).sweep = s.sweep ∧ (holdRequester who s).bank = s.bank := by
  simp only [holdRequester]
  (repeat' split) <;> simp

@[simp] theorem answerHead_keeps (m : Msg) (s : State) :
    (answerHead m s).mem = s.mem ∧ (answerHead m s).tu = s.tu ∧ (answerHead m s).holder = s.holder ∧
    (answerHead m s).home = s.home ∧ (answerHead m s).sweep = s.sweep ∧ (answerHead m s).port = s.port ∧
    (answerHead m s).counters = s.counters ∧ (answerHead m s).causes = s.causes ∧ (answerHead m s).bank = s.bank := by
  simp only [answerHead]
  (repeat' split) <;> simp

@[simp] theorem firstAnswer_keeps (who : Requester) (m : Msg) (s : State) :
    (firstAnswer who m s).mem = s.mem ∧ (firstAnswer who m s).holder = s.holder ∧
    (firstAnswer who m s).home = s.home ∧ (firstAnswer who m s).sweep = s.sweep ∧ (firstAnswer who m s).bank = s.bank := by
  simp only [firstAnswer]
  (repeat' split) <;> simp

@[simp] theorem settle_keeps (s : State) :
    (settle s).mem = s.mem ∧ (settle s).link = s.link ∧ (settle s).tu = s.tu ∧ (settle s).filter = s.filter ∧
    (settle s).holder = s.holder ∧ (settle s).sweep = s.sweep ∧ (settle s).port = s.port ∧
    (settle s).counters = s.counters ∧ (settle s).causes = s.causes ∧ (settle s).bank = s.bank := by
  simp only [settle]
  (repeat' split) <;> simp

@[simp] theorem takePlace_keeps (p : Place) (s : State) :
    (takePlace p s).mem = s.mem ∧ (takePlace p s).link = s.link ∧ (takePlace p s).tu = s.tu ∧
    (takePlace p s).filter = s.filter ∧ (takePlace p s).holder = s.holder ∧ (takePlace p s).sweep = s.sweep ∧
    (takePlace p s).port = s.port ∧ (takePlace p s).counters = s.counters ∧ (takePlace p s).causes = s.causes ∧
    (takePlace p s).bank = s.bank := by
  simp only [takePlace]
  (repeat' split) <;> simp

@[simp] theorem mapOp_keeps (st : Nat) (g : Op → Op) (s : State) :
    (mapOp st g s).mem = s.mem ∧ (mapOp st g s).link = s.link ∧ (mapOp st g s).tu = s.tu ∧
    (mapOp st g s).filter = s.filter ∧ (mapOp st g s).holder = s.holder ∧ (mapOp st g s).sweep = s.sweep ∧
    (mapOp st g s).port = s.port ∧ (mapOp st g s).counters = s.counters ∧ (mapOp st g s).causes = s.causes ∧
    (mapOp st g s).bank = s.bank := by
  simp only [mapOp]
  (repeat' split) <;> simp

@[simp] theorem freePlace_keeps (p : Place → Bool) (s : State) :
    (freePlace p s).mem = s.mem ∧ (freePlace p s).link = s.link ∧ (freePlace p s).tu = s.tu ∧
    (freePlace p s).filter = s.filter ∧ (freePlace p s).holder = s.holder ∧ (freePlace p s).sweep = s.sweep ∧
    (freePlace p s).port = s.port ∧ (freePlace p s).counters = s.counters ∧ (freePlace p s).causes = s.causes ∧
    (freePlace p s).bank = s.bank := by
  simp only [freePlace]
  (repeat' split) <;> simp

@[simp] theorem movePlace_keeps (p : Place → Bool) (g : Place → Place) (s : State) :
    (movePlace p g s).mem = s.mem ∧ (movePlace p g s).link = s.link ∧ (movePlace p g s).tu = s.tu ∧
    (movePlace p g s).filter = s.filter ∧ (movePlace p g s).holder = s.holder ∧ (movePlace p g s).sweep = s.sweep ∧
    (movePlace p g s).port = s.port ∧ (movePlace p g s).counters = s.counters ∧ (movePlace p g s).causes = s.causes ∧
    (movePlace p g s).bank = s.bank := by
  simp only [movePlace]
  (repeat' split) <;> simp

@[simp] theorem listRecompute_keeps (st o : Nat) (s : State) :
    (listRecompute st o s).mem = s.mem ∧ (listRecompute st o s).link = s.link ∧ (listRecompute st o s).tu = s.tu ∧
    (listRecompute st o s).filter = s.filter ∧ (listRecompute st o s).holder = s.holder ∧
    (listRecompute st o s).sweep = s.sweep ∧ (listRecompute st o s).port = s.port ∧
    (listRecompute st o s).counters = s.counters ∧ (listRecompute st o s).causes = s.causes ∧
    (listRecompute st o s).bank = s.bank := by
  simp only [listRecompute]
  (repeat' split) <;> simp

@[simp] theorem goActive_keeps (s : State) :
    (goActive s).tu = s.tu ∧ (goActive s).filter = s.filter ∧ (goActive s).holder = s.holder ∧
    (goActive s).home = s.home ∧ (goActive s).port = s.port ∧ (goActive s).counters = s.counters ∧
    (goActive s).causes = s.causes ∧ (goActive s).bank = s.bank := by
  simp only [goActive]
  (repeat' split) <;> simp

@[simp] theorem fillClaim_keeps (st : Nat) (s : State) :
    (fillClaim st s).mem = s.mem ∧ (fillClaim st s).link = s.link ∧ (fillClaim st s).tu = s.tu ∧
    (fillClaim st s).filter = s.filter ∧ (fillClaim st s).holder = s.holder ∧ (fillClaim st s).home = s.home ∧
    (fillClaim st s).sweep = s.sweep ∧ (fillClaim st s).port = s.port ∧ (fillClaim st s).counters = s.counters ∧
    (fillClaim st s).causes = s.causes := by
  simp only [fillClaim]
  (repeat' split) <;> simp

@[simp] theorem fillAdvance_keeps (s : State) :
    (fillAdvance s).tu = s.tu ∧ (fillAdvance s).filter = s.filter ∧ (fillAdvance s).holder = s.holder ∧
    (fillAdvance s).home = s.home ∧ (fillAdvance s).port = s.port ∧ (fillAdvance s).counters = s.counters ∧
    (fillAdvance s).causes = s.causes := by
  simp only [fillAdvance]
  (repeat' split) <;> simp

@[simp] theorem offerRecompute_keeps (st : Nat) (s : State) :
    (offerRecompute st s).mem = s.mem ∧ (offerRecompute st s).link = s.link ∧ (offerRecompute st s).tu = s.tu ∧
    (offerRecompute st s).filter = s.filter ∧ (offerRecompute st s).holder = s.holder ∧
    (offerRecompute st s).port = s.port ∧ (offerRecompute st s).counters = s.counters ∧
    (offerRecompute st s).causes = s.causes ∧ (offerRecompute st s).bank = s.bank := by
  simp only [offerRecompute]
  (repeat' split) <;> simp

@[simp] theorem askRebuild_keeps (st : Nat) (s : State) :
    (askRebuild st s).mem = s.mem ∧ (askRebuild st s).link = s.link ∧ (askRebuild st s).filter = s.filter ∧
    (askRebuild st s).holder = s.holder ∧ (askRebuild st s).home = s.home ∧ (askRebuild st s).port = s.port ∧
    (askRebuild st s).counters = s.counters ∧ (askRebuild st s).causes = s.causes ∧ (askRebuild st s).bank = s.bank := by
  simp only [askRebuild]
  (repeat' split) <;> simp

@[simp] theorem beginStripe_keeps (st : Nat) (s : State) :
    (beginStripe st s).mem = s.mem ∧ (beginStripe st s).link = s.link ∧ (beginStripe st s).filter = s.filter ∧
    (beginStripe st s).holder = s.holder ∧ (beginStripe st s).port = s.port ∧
    (beginStripe st s).counters = s.counters ∧ (beginStripe st s).causes = s.causes ∧ (beginStripe st s).bank = s.bank := by
  simp only [beginStripe]
  (repeat' split) <;> simp

@[simp] theorem rebuildComplete_keeps (s : State) :
    (rebuildComplete s).tu = s.tu ∧ (rebuildComplete s).filter = s.filter ∧ (rebuildComplete s).holder = s.holder ∧
    (rebuildComplete s).home = s.home ∧ (rebuildComplete s).port = s.port ∧
    (rebuildComplete s).counters = s.counters ∧ (rebuildComplete s).bank = s.bank := by
  simp only [rebuildComplete]
  (repeat' split) <;> simp

@[simp] theorem rebuildAdvance_keeps (s : State) :
    (rebuildAdvance s).filter = s.filter ∧ (rebuildAdvance s).holder = s.holder ∧ (rebuildAdvance s).port = s.port ∧
    (rebuildAdvance s).counters = s.counters ∧ (rebuildAdvance s).bank = s.bank := by
  simp only [rebuildAdvance]
  (repeat' split) <;> simp

@[simp] theorem storeUnit_keeps (ws : List (Option Word)) (s : State) :
    (storeUnit ws s).mem = s.mem ∧ (storeUnit ws s).link = s.link ∧ (storeUnit ws s).tu = s.tu ∧
    (storeUnit ws s).filter = s.filter ∧ (storeUnit ws s).holder = s.holder ∧ (storeUnit ws s).home = s.home ∧
    (storeUnit ws s).port = s.port ∧ (storeUnit ws s).counters = s.counters ∧ (storeUnit ws s).causes = s.causes := by
  simp only [storeUnit]
  (repeat' split) <;> simp

@[simp] theorem sweepOutcome_keeps (o : Outcome) (s : State) :
    (sweepOutcome o s).mem = s.mem ∧ (sweepOutcome o s).link = s.link ∧ (sweepOutcome o s).tu = s.tu ∧
    (sweepOutcome o s).filter = s.filter ∧ (sweepOutcome o s).holder = s.holder ∧ (sweepOutcome o s).home = s.home ∧
    (sweepOutcome o s).port = s.port ∧ (sweepOutcome o s).counters = s.counters ∧ (sweepOutcome o s).causes = s.causes := by
  simp only [sweepOutcome]
  (repeat' split) <;> simp

@[simp] theorem auditAdvance_keeps (s : State) :
    (auditAdvance s).mem = s.mem ∧ (auditAdvance s).link = s.link ∧ (auditAdvance s).tu = s.tu ∧
    (auditAdvance s).filter = s.filter ∧ (auditAdvance s).holder = s.holder ∧ (auditAdvance s).home = s.home ∧
    (auditAdvance s).port = s.port ∧ (auditAdvance s).counters = s.counters ∧ (auditAdvance s).causes = s.causes ∧
    (auditAdvance s).bank = s.bank := by
  simp only [auditAdvance]
  (repeat' split) <;> simp

@[simp] theorem auditEnd_keeps (r : AuditResult) (s : State) :
    (auditEnd r s).mem = s.mem ∧ (auditEnd r s).link = s.link ∧ (auditEnd r s).tu = s.tu ∧
    (auditEnd r s).filter = s.filter ∧ (auditEnd r s).holder = s.holder ∧ (auditEnd r s).home = s.home ∧
    (auditEnd r s).port = s.port ∧ (auditEnd r s).counters = s.counters ∧ (auditEnd r s).causes = s.causes ∧
    (auditEnd r s).bank = s.bank := by
  simp only [auditEnd]
  (repeat' split) <;> simp

@[simp] theorem admitAudit_keeps (urgent : Bool) (s : State) :
    (admitAudit urgent s).mem = s.mem ∧ (admitAudit urgent s).link = s.link ∧ (admitAudit urgent s).tu = s.tu ∧
    (admitAudit urgent s).filter = s.filter ∧ (admitAudit urgent s).holder = s.holder ∧
    (admitAudit urgent s).port = s.port ∧ (admitAudit urgent s).counters = s.counters ∧
    (admitAudit urgent s).causes = s.causes ∧ (admitAudit urgent s).bank = s.bank := by
  simp only [admitAudit]
  (repeat' split) <;> simp

@[simp] theorem auditAttempt_keeps (s : State) :
    (auditAttempt s).mem = s.mem ∧ (auditAttempt s).link = s.link ∧ (auditAttempt s).tu = s.tu ∧
    (auditAttempt s).filter = s.filter ∧ (auditAttempt s).holder = s.holder ∧ (auditAttempt s).port = s.port ∧
    (auditAttempt s).counters = s.counters ∧ (auditAttempt s).causes = s.causes ∧ (auditAttempt s).bank = s.bank := by
  simp only [auditAttempt]
  (repeat' split) <;> simp

@[simp] theorem withdrawUrgent_keeps (s : State) :
    (withdrawUrgent s).mem = s.mem ∧ (withdrawUrgent s).link = s.link ∧ (withdrawUrgent s).tu = s.tu ∧
    (withdrawUrgent s).filter = s.filter ∧ (withdrawUrgent s).holder = s.holder ∧ (withdrawUrgent s).home = s.home ∧
    (withdrawUrgent s).port = s.port ∧ (withdrawUrgent s).counters = s.counters ∧
    (withdrawUrgent s).causes = s.causes ∧ (withdrawUrgent s).bank = s.bank := by
  simp only [withdrawUrgent]
  (repeat' split) <;> simp

@[simp] theorem mapAcc_keeps (i : Nat) (g : Accum → Accum) (s : State) :
    (mapAcc i g s).mem = s.mem ∧ (mapAcc i g s).link = s.link ∧ (mapAcc i g s).tu = s.tu ∧
    (mapAcc i g s).filter = s.filter ∧ (mapAcc i g s).holder = s.holder ∧ (mapAcc i g s).sweep = s.sweep ∧
    (mapAcc i g s).port = s.port ∧ (mapAcc i g s).counters = s.counters ∧ (mapAcc i g s).causes = s.causes ∧
    (mapAcc i g s).bank = s.bank := by
  simp only [mapAcc]
  (repeat' split) <;> simp

@[simp] theorem askNext_keeps (st : Nat) (s : State) :
    (askNext st s).mem = s.mem ∧ (askNext st s).link = s.link ∧ (askNext st s).filter = s.filter ∧
    (askNext st s).holder = s.holder ∧ (askNext st s).sweep = s.sweep ∧ (askNext st s).port = s.port ∧
    (askNext st s).counters = s.counters ∧ (askNext st s).causes = s.causes ∧ (askNext st s).bank = s.bank := by
  simp only [askNext]
  (repeat' split) <;> simp

@[simp] theorem beginStep_keeps (st : Nat) (step : OpStep) (asks : List Ask) (claims : List Claim) (s : State) :
    (beginStep st step asks claims s).mem = s.mem ∧ (beginStep st step asks claims s).link = s.link ∧
    (beginStep st step asks claims s).filter = s.filter ∧ (beginStep st step asks claims s).holder = s.holder ∧
    (beginStep st step asks claims s).sweep = s.sweep ∧ (beginStep st step asks claims s).port = s.port ∧
    (beginStep st step asks claims s).counters = s.counters ∧ (beginStep st step asks claims s).causes = s.causes := by
  simp only [beginStep]
  (repeat' split) <;> simp

@[simp] theorem closeOp_keeps (st : Nat) (s : State) :
    (closeOp st s).mem = s.mem ∧ (closeOp st s).link = s.link ∧ (closeOp st s).tu = s.tu ∧
    (closeOp st s).filter = s.filter ∧ (closeOp st s).holder = s.holder ∧ (closeOp st s).sweep = s.sweep ∧
    (closeOp st s).port = s.port ∧ (closeOp st s).causes = s.causes ∧ (closeOp st s).bank = s.bank := by
  simp only [closeOp]
  (repeat' split) <;> simp

@[simp] theorem closeAudit_keeps (st : Nat) (r : AuditResult) (s : State) :
    (closeAudit st r s).mem = s.mem ∧ (closeAudit st r s).link = s.link ∧ (closeAudit st r s).tu = s.tu ∧
    (closeAudit st r s).filter = s.filter ∧ (closeAudit st r s).holder = s.holder ∧
    (closeAudit st r s).port = s.port ∧ (closeAudit st r s).causes = s.causes ∧ (closeAudit st r s).bank = s.bank := by
  simp only [closeAudit]
  (repeat' split) <;> simp

@[simp] theorem sendAnswers_keeps (st : Nat) (op : Op) (s : State) :
    (sendAnswers st op s).mem = s.mem ∧ (sendAnswers st op s).holder = s.holder ∧
    (sendAnswers st op s).sweep = s.sweep ∧ (sendAnswers st op s).bank = s.bank := by
  simp only [sendAnswers]
  (repeat' split) <;> simp

@[simp] theorem replyOp_keeps (st : Nat) (s : State) :
    (replyOp st s).holder = s.holder ∧ (replyOp st s).bank = s.bank := by
  simp only [replyOp]
  (repeat' split) <;> simp

@[simp] theorem decideRecover_keeps (st : Nat) (op : Op) (s : State) :
    (decideRecover st op s).mem = s.mem ∧ (decideRecover st op s).link = s.link ∧
    (decideRecover st op s).filter = s.filter ∧ (decideRecover st op s).holder = s.holder ∧
    (decideRecover st op s).sweep = s.sweep ∧ (decideRecover st op s).port = s.port ∧
    (decideRecover st op s).counters = s.counters ∧ (decideRecover st op s).causes = s.causes := by
  simp only [decideRecover]
  (repeat' split) <;> simp

@[simp] theorem decideMerge_keeps (st : Nat) (op : Op) (s : State) :
    (decideMerge st op s).mem = s.mem ∧ (decideMerge st op s).link = s.link ∧
    (decideMerge st op s).filter = s.filter ∧ (decideMerge st op s).holder = s.holder ∧
    (decideMerge st op s).sweep = s.sweep ∧ (decideMerge st op s).port = s.port ∧
    (decideMerge st op s).counters = s.counters ∧ (decideMerge st op s).causes = s.causes := by
  simp only [decideMerge]
  (repeat' split) <;> simp

@[simp] theorem decideDegraded_keeps (st : Nat) (op : Op) (s : State) :
    (decideDegraded st op s).mem = s.mem ∧ (decideDegraded st op s).link = s.link ∧
    (decideDegraded st op s).filter = s.filter ∧ (decideDegraded st op s).holder = s.holder ∧
    (decideDegraded st op s).sweep = s.sweep ∧ (decideDegraded st op s).port = s.port ∧
    (decideDegraded st op s).counters = s.counters ∧ (decideDegraded st op s).causes = s.causes := by
  simp only [decideDegraded]
  (repeat' split) <;> simp

@[simp] theorem decideRecompute_keeps (st : Nat) (op : Op) (s : State) :
    (decideRecompute st op s).mem = s.mem ∧ (decideRecompute st op s).link = s.link ∧
    (decideRecompute st op s).filter = s.filter ∧ (decideRecompute st op s).holder = s.holder ∧
    (decideRecompute st op s).sweep = s.sweep ∧ (decideRecompute st op s).port = s.port ∧
    (decideRecompute st op s).counters = s.counters ∧ (decideRecompute st op s).causes = s.causes := by
  simp only [decideRecompute]
  (repeat' split) <;> simp

@[simp] theorem decideRebuild_keeps (st : Nat) (op : Op) (s : State) :
    (decideRebuild st op s).holder = s.holder := by
  simp only [decideRebuild]
  (repeat' split) <;> simp

@[simp] theorem auditOffset_keeps (st : Nat) (repair : List Nat) (s : State) :
    (auditOffset st repair s).mem = s.mem ∧ (auditOffset st repair s).link = s.link ∧
    (auditOffset st repair s).filter = s.filter ∧ (auditOffset st repair s).holder = s.holder ∧
    (auditOffset st repair s).port = s.port ∧ (auditOffset st repair s).causes = s.causes := by
  simp only [auditOffset]
  (repeat' split) <;> simp

@[simp] theorem decideFold_keeps (st : Nat) (op : Op) (s : State) :
    (decideFold st op s).mem = s.mem ∧ (decideFold st op s).link = s.link ∧ (decideFold st op s).filter = s.filter ∧
    (decideFold st op s).holder = s.holder ∧ (decideFold st op s).port = s.port ∧
    (decideFold st op s).causes = s.causes := by
  simp only [decideFold]
  (repeat' split) <;> simp

@[simp] theorem decideOffset_keeps (st : Nat) (op : Op) (s : State) :
    (decideOffset st op s).mem = s.mem ∧ (decideOffset st op s).link = s.link ∧
    (decideOffset st op s).filter = s.filter ∧ (decideOffset st op s).holder = s.holder ∧
    (decideOffset st op s).port = s.port := by
  simp only [decideOffset]
  (repeat' split) <;> simp

@[simp] theorem opDecide_keeps (st : Nat) (op : Op) (s : State) :
    (opDecide st op s).holder = s.holder := by
  simp only [opDecide]
  (repeat' split) <;> simp

@[simp] theorem opAdvance_keeps (st : Nat) (s : State) :
    (opAdvance st s).holder = s.holder := by
  simp only [opAdvance]
  (repeat' split) <;> simp

@[simp] theorem stopAudit_keeps (st : Nat) (s : State) :
    (stopAudit st s).mem = s.mem ∧ (stopAudit st s).link = s.link ∧ (stopAudit st s).tu = s.tu ∧
    (stopAudit st s).filter = s.filter ∧ (stopAudit st s).holder = s.holder ∧ (stopAudit st s).sweep = s.sweep ∧
    (stopAudit st s).port = s.port ∧ (stopAudit st s).counters = s.counters ∧ (stopAudit st s).causes = s.causes ∧
    (stopAudit st s).bank = s.bank := by
  simp only [stopAudit]
  (repeat' split) <;> simp

@[simp] theorem recordResult_keeps (st k : Nat) (r : MemberResult) (s : State) :
    (recordResult st k r s).mem = s.mem ∧ (recordResult st k r s).link = s.link ∧ (recordResult st k r s).tu = s.tu ∧
    (recordResult st k r s).filter = s.filter ∧ (recordResult st k r s).holder = s.holder ∧
    (recordResult st k r s).sweep = s.sweep ∧ (recordResult st k r s).port = s.port ∧
    (recordResult st k r s).counters = s.counters ∧ (recordResult st k r s).causes = s.causes ∧
    (recordResult st k r s).bank = s.bank := by
  simp only [recordResult]
  (repeat' split) <;> simp

@[simp] theorem memberUnavailable_keeps (st k : Nat) (s : State) :
    (memberUnavailable st k s).mem = s.mem ∧ (memberUnavailable st k s).link = s.link ∧
    (memberUnavailable st k s).tu = s.tu ∧ (memberUnavailable st k s).filter = s.filter ∧
    (memberUnavailable st k s).holder = s.holder ∧ (memberUnavailable st k s).sweep = s.sweep ∧
    (memberUnavailable st k s).port = s.port ∧ (memberUnavailable st k s).counters = s.counters ∧
    (memberUnavailable st k s).causes = s.causes ∧ (memberUnavailable st k s).bank = s.bank := by
  simp [memberUnavailable]

@[simp] theorem accumulate_keeps (st first : Nat) (ws : List (Option Word)) (s : State) :
    (accumulate st first ws s).mem = s.mem ∧ (accumulate st first ws s).link = s.link ∧
    (accumulate st first ws s).tu = s.tu ∧ (accumulate st first ws s).filter = s.filter ∧
    (accumulate st first ws s).holder = s.holder ∧ (accumulate st first ws s).sweep = s.sweep ∧
    (accumulate st first ws s).port = s.port ∧ (accumulate st first ws s).counters = s.counters ∧
    (accumulate st first ws s).causes = s.causes ∧ (accumulate st first ws s).bank = s.bank := by
  simp only [accumulate]
  (repeat' split) <;> simp

@[simp] theorem recordOutcome_keeps (st : Nat) (kind : Kind) (f : Fields) (o : Outcome) (s : State) :
    (recordOutcome st kind f o s).mem = s.mem ∧ (recordOutcome st kind f o s).link = s.link ∧
    (recordOutcome st kind f o s).tu = s.tu ∧ (recordOutcome st kind f o s).filter = s.filter ∧
    (recordOutcome st kind f o s).holder = s.holder ∧ (recordOutcome st kind f o s).sweep = s.sweep ∧
    (recordOutcome st kind f o s).port = s.port ∧ (recordOutcome st kind f o s).causes = s.causes ∧
    (recordOutcome st kind f o s).bank = s.bank := by
  simp only [recordOutcome]
  (repeat' split) <;> simp

@[simp] theorem opOutcome_keeps (st : Nat) (kind : Kind) (f : Fields) (o : Outcome) (s : State) :
    (opOutcome st kind f o s).holder = s.holder := by
  simp only [opOutcome]
  (repeat' split) <;> simp

@[simp] theorem opParityRead_keeps (st first : Nat) (ws : List BankWord) (s : State) :
    (opParityRead st first ws s).holder = s.holder := by
  simp only [opParityRead]
  (repeat' split) <;> simp

@[simp] theorem opParityWritten_keeps (st : Nat) (s : State) :
    (opParityWritten st s).holder = s.holder := by
  simp only [opParityWritten]
  (repeat' split) <;> simp

@[simp] theorem startWork_keeps (st : Nat) (op : Op) (s : State) :
    (startWork st op s).mem = s.mem ∧ (startWork st op s).link = s.link ∧ (startWork st op s).filter = s.filter ∧
    (startWork st op s).holder = s.holder ∧ (startWork st op s).sweep = s.sweep ∧ (startWork st op s).port = s.port ∧
    (startWork st op s).counters = s.counters ∧ (startWork st op s).causes = s.causes := by
  simp only [startWork]
  (repeat' split) <;> simp

@[simp] theorem startOp_keeps (st acc : Nat) (s : State) :
    (startOp st acc s).mem = s.mem ∧ (startOp st acc s).link = s.link ∧ (startOp st acc s).holder = s.holder ∧
    (startOp st acc s).sweep = s.sweep ∧ (startOp st acc s).port = s.port ∧ (startOp st acc s).counters = s.counters ∧
    (startOp st acc s).causes = s.causes := by
  simp only [startOp]
  (repeat' split) <;> simp

@[simp] theorem settleWrite_keeps (pred : Place → Bool) (p : Place) (status : Status) (s : State) :
    (settleWrite pred p status s).mem = s.mem ∧ (settleWrite pred p status s).holder = s.holder ∧
    (settleWrite pred p status s).sweep = s.sweep ∧ (settleWrite pred p status s).bank = s.bank := by
  simp only [settleWrite]
  (repeat' split) <;> simp

@[simp] theorem toAnswer_keeps (pred : Place → Bool) (p : Place) (s : State) :
    (toAnswer pred p s).mem = s.mem ∧ (toAnswer pred p s).holder = s.holder ∧ (toAnswer pred p s).sweep = s.sweep ∧
    (toAnswer pred p s).bank = s.bank := by
  simp only [toAnswer]
  (repeat' split) <;> simp

@[simp] theorem toConversion_keeps (pred : Place → Bool) (k : WorkKind) (p : Place) (s : State) :
    (toConversion pred k p s).mem = s.mem ∧ (toConversion pred k p s).holder = s.holder ∧
    (toConversion pred k p s).sweep = s.sweep ∧ (toConversion pred k p s).bank = s.bank := by
  simp only [toConversion]
  (repeat' split) <;> simp

@[simp] theorem updateOutcome_keeps (pred : Place → Bool) (p : Place) (o : Outcome) (s : State) :
    (updateOutcome pred p o s).mem = s.mem ∧ (updateOutcome pred p o s).holder = s.holder ∧
    (updateOutcome pred p o s).sweep = s.sweep := by
  simp only [updateOutcome]
  (repeat' split) <;> simp

@[simp] theorem forwardOutcome_keeps (pred : Place → Bool) (p : Place) (o : Outcome) (s : State) :
    (forwardOutcome pred p o s).mem = s.mem ∧ (forwardOutcome pred p o s).holder = s.holder ∧
    (forwardOutcome pred p o s).sweep = s.sweep ∧ (forwardOutcome pred p o s).bank = s.bank := by
  simp only [forwardOutcome]
  (repeat' split) <;> simp

@[simp] theorem memberOutcome_keeps (st tag : Nat) (kind : Kind) (o : Outcome) (s : State) :
    (memberOutcome st tag kind o s).mem = s.mem ∧ (memberOutcome st tag kind o s).holder = s.holder ∧
    (memberOutcome st tag kind o s).sweep = s.sweep := by
  simp only [memberOutcome]
  (repeat' split) <;> simp

@[simp] theorem deltaApplied_keeps (st o : Nat) (old : BankWord) (s : State) :
    (deltaApplied st o old s).mem = s.mem ∧ (deltaApplied st o old s).holder = s.holder ∧
    (deltaApplied st o old s).sweep = s.sweep ∧ (deltaApplied st o old s).bank = s.bank := by
  simp only [deltaApplied]
  (repeat' split) <;> simp

@[simp] theorem repairNext_keeps (s : State) :
    (repairNext s).mem = s.mem ∧ (repairNext s).link = s.link ∧ (repairNext s).filter = s.filter ∧
    (repairNext s).home = s.home ∧ (repairNext s).sweep = s.sweep ∧ (repairNext s).port = s.port ∧
    (repairNext s).causes = s.causes ∧ (repairNext s).bank = s.bank := by
  simp only [repairNext]
  (repeat' split) <;> simp

@[simp] theorem repairOffer_keeps (st o : Nat) (s : State) :
    (repairOffer st o s).mem = s.mem ∧ (repairOffer st o s).link = s.link ∧ (repairOffer st o s).filter = s.filter ∧
    (repairOffer st o s).home = s.home ∧ (repairOffer st o s).sweep = s.sweep ∧ (repairOffer st o s).port = s.port ∧
    (repairOffer st o s).causes = s.causes ∧ (repairOffer st o s).bank = s.bank := by
  simp only [repairOffer]
  (repeat' split) <;> simp

@[simp] theorem repairOutcome_keeps (o : Outcome) (s : State) :
    (repairOutcome o s).mem = s.mem ∧ (repairOutcome o s).link = s.link ∧ (repairOutcome o s).filter = s.filter ∧
    (repairOutcome o s).home = s.home ∧ (repairOutcome o s).sweep = s.sweep ∧ (repairOutcome o s).port = s.port ∧
    (repairOutcome o s).causes = s.causes ∧ (repairOutcome o s).bank = s.bank := by
  simp only [repairOutcome]
  (repeat' split) <;> simp

@[simp] theorem dropReplies_keeps (j : Nat) (s : State) :
    (dropReplies j s).mem = s.mem ∧ (dropReplies j s).tu = s.tu ∧ (dropReplies j s).filter = s.filter ∧
    (dropReplies j s).holder = s.holder ∧ (dropReplies j s).home = s.home ∧ (dropReplies j s).sweep = s.sweep ∧
    (dropReplies j s).port = s.port ∧ (dropReplies j s).counters = s.counters ∧ (dropReplies j s).causes = s.causes ∧
    (dropReplies j s).bank = s.bank := by
  simp only [dropReplies]
  (repeat' split) <;> simp

@[simp] theorem loseAtHome_keeps (j : Nat) (s : State) :
    (loseAtHome j s).mem = s.mem ∧ (loseAtHome j s).link = s.link ∧ (loseAtHome j s).tu = s.tu ∧
    (loseAtHome j s).filter = s.filter ∧ (loseAtHome j s).holder = s.holder ∧ (loseAtHome j s).sweep = s.sweep ∧
    (loseAtHome j s).port = s.port ∧ (loseAtHome j s).causes = s.causes ∧ (loseAtHome j s).bank = s.bank := by
  simp only [loseAtHome]
  (repeat' split) <;> simp

@[simp] theorem dropInbound_keeps (j : Nat) (s : State) :
    (dropInbound j s).mem = s.mem ∧ (dropInbound j s).tu = s.tu ∧ (dropInbound j s).filter = s.filter ∧
    (dropInbound j s).holder = s.holder ∧ (dropInbound j s).home = s.home ∧ (dropInbound j s).sweep = s.sweep ∧
    (dropInbound j s).port = s.port ∧ (dropInbound j s).counters = s.counters ∧ (dropInbound j s).causes = s.causes ∧
    (dropInbound j s).bank = s.bank := by
  simp only [dropInbound]
  (repeat' split) <;> simp

@[simp] theorem viewDown_keeps (j : Nat) (v : ViewEntry) (s : State) :
    (viewDown j v s).1.holder = s.holder ∧ (viewDown j v s).1.port = s.port ∧ (viewDown j v s).1.bank = s.bank := by
  simp only [viewDown]
  (repeat' split) <;> simp

@[simp] theorem startJoining_keeps (mode : JoinMode) (s : State) :
    (startJoining mode s).tu = s.tu ∧ (startJoining mode s).filter = s.filter ∧
    (startJoining mode s).holder = s.holder ∧ (startJoining mode s).home = s.home ∧
    (startJoining mode s).sweep = s.sweep ∧ (startJoining mode s).port = s.port ∧
    (startJoining mode s).counters = s.counters ∧ (startJoining mode s).causes = s.causes ∧
    (startJoining mode s).bank = s.bank := by
  simp only [startJoining]
  (repeat' split) <;> simp

@[simp] theorem joinDecision_keeps (s : State) :
    (joinDecision s).filter = s.filter ∧ (joinDecision s).holder = s.holder ∧ (joinDecision s).port = s.port ∧
    (joinDecision s).counters = s.counters ∧ (joinDecision s).causes = s.causes := by
  simp only [joinDecision]
  (repeat' split) <;> simp

@[simp] theorem expelEntry_keeps (s : State) (e : LocalEntry) :
    (expelEntry s e).mem = s.mem ∧ (expelEntry s e).link = s.link ∧ (expelEntry s e).tu = s.tu ∧
    (expelEntry s e).filter = s.filter ∧ (expelEntry s e).holder = s.holder ∧ (expelEntry s e).home = s.home ∧
    (expelEntry s e).sweep = s.sweep ∧ (expelEntry s e).bank = s.bank := by
  simp only [expelEntry]
  (repeat' split) <;> simp

@[simp] theorem expelEntries_keeps (s : State) :
    (expelEntries s).mem = s.mem ∧ (expelEntries s).link = s.link ∧ (expelEntries s).tu = s.tu ∧
    (expelEntries s).filter = s.filter ∧ (expelEntries s).holder = s.holder ∧ (expelEntries s).home = s.home ∧
    (expelEntries s).sweep = s.sweep ∧ (expelEntries s).bank = s.bank := by
  simp only [expelEntries]
  (repeat' split) <;> simp

end Sys2Proof.Machine
end

