-- ==== Sys2Proof/Laws/Ops.lean ====
section
/-! SUPPORT. What each of the shared operations that other meanings are built from can do, said once: counters, claims
due, queues, slots, the stripe table, an operation's steps. -/

namespace Sys2Proof.Machine

/-! ### Counters (R188) -/

theorem satAdd_le (c k : Nat) : satAdd c k ≤ 65535 := by simp only [satAdd, Config.counterMax]; omega

theorem le_satAdd {c : Nat} (k : Nat) (h : c ≤ 65535) : c ≤ satAdd c k := by
  simp only [satAdd, Config.counterMax]; omega

theorem satAdd_zero {c : Nat} (h : c ≤ 65535) : satAdd c 0 = c := by simp only [satAdd, Config.counterMax]; omega

/-! ### Claims due (R19) -/

theorem dueClaim_due (who x : Claimant) (c : Claim) (s : State) :
    (dueClaim who c s).bank.due x = s.bank.due x ++ if x = who then [c] else [] := by
  cases who <;> cases x <;> simp [dueClaim, Bank.due, Bank.setDue]

@[simp] theorem dueClaim_bank (who : Claimant) (c : Claim) (s : State) :
    (dueClaim who c s).bank = s.bank.setDue who (s.bank.due who ++ [c]) := rfl

theorem foldl_dueClaim_home (claims : List Claim) (s : State) :
    claims.foldl (fun s c => dueClaim .home c s) s = s.setBank { s.bank with homeDue := s.bank.homeDue ++ claims } := by
  induction claims generalizing s with
  | nil => simp [State.setBank]
  | cons c l ih =>
    rw [List.foldl_cons, ih]
    simp [dueClaim, Bank.setDue, Bank.due, State.setBank]

/-- A claim carried out: its words written, its void words counted, the bank free (R15, R16, R140). -/
theorem runClaim_spec (c : Claim) (s : State) :
    (runClaim c s).bank = { s.bank with words := bankSetAll s.bank.words (claimWrites s.bank.words c), busy := none } ∧
    (runClaim c s).counters = { s.counters with lost := satAdd s.counters.lost (claimVoids c) } := by
  simp [runClaim, countLost]

/-- A claim cut before its first access, and a merge claim cut at all, has written nothing (R20). -/
theorem cutWrites_nil (m : List (Nat × BankWord)) (c : Claim) (n : Nat) (h : n = 0 ∨ ∃ g, c.op = .merge g) :
    cutWrites m c n = [] := by
  rcases h with rfl | ⟨g, h⟩
  · simp only [cutWrites]; split <;> simp
  · simp [cutWrites, h]

/-! ### The duplicate filter (R77 to R79) -/

/-- Changing an entry touches the entry of that request only, and only while it is IN_PROGRESS (R79). -/
theorem filterStep_filter (src tag : Nat) (seq : Bool) (st : FilterState) (s : State) :
    (filterStep src tag seq st s).filter = s.filter.map fun e =>
      if e.src = src ∧ e.tag = tag ∧ e.seq = seq ∧ (e.state = .inProgress true ∨ e.state = .inProgress false) then
        { e with state := st }
      else e := by
  simp only [filterStep, State.setFilter_filter]
  apply List.map_congr_left
  intro e _
  obtain ⟨a, b, c, k, x⟩ := e
  rcases x with p | d
  · cases p <;> simp [and_assoc]
  · simp

/-! ### Replies and notices (R35, R36) -/

theorem replyDropped_of_available {s : State} {m : Msg} {j : Nat} (hd : m.dest = .station j)
    (hv : (viewAt s j).state.available = true) : replyDropped s m = false := by
  simp only [replyDropped, hd]
  revert hv
  cases (viewAt s j).state <;> simp [ViewState.available]

theorem replyDropped_of_unavailable {s : State} {m : Msg} {j : Nat} (hd : m.dest = .station j)
    (hk : m.kind ≠ .helloRsp) (hv : (viewAt s j).state.available = false) : replyDropped s m = true := by
  simp only [replyDropped, hd]
  revert hv
  cases (viewAt s j).state <;> simp [ViewState.available, hk]

theorem filterDone_of_not_final {m : Msg} (h : m.kind.isFinal = false) (s : State) : filterDone m s = s := by
  simp [filterDone, h]

theorem pushReply_replies (m : OutMsg) (s : State) :
    (pushReply m s).link.replies.q = s.link.replies.q ++ [{ m with msg := stamp s m.msg }] := rfl

/-- The notice asked for is in the queue afterwards (R35). -/
theorem mem_queueNotice (n : Msg) (s : State) : ∃ m ∈ (queueNotice n s).link.notices.q, m.msg = stamp s n := by
  simp only [queueNotice]
  split
  next h =>
    obtain ⟨x, hx, he⟩ := List.any_eq_true.1 h
    exact ⟨x, hx, by simpa using he⟩
  next =>
    split
    next h =>
      refine ⟨{ msg := stamp s n }, ?_, rfl⟩
      have key : ∀ l : List OutMsg, l.any (fun x => noticeReplaces (stamp s n) x.msg) = true →
          ({ msg := stamp s n } : OutMsg) ∈ replaceFirst (fun x => noticeReplaces (stamp s n) x.msg) { msg := stamp s n } l := by
        intro l
        induction l with
        | nil => simp
        | cons x l ih =>
          intro hl
          simp only [replaceFirst]
          split
          · exact List.mem_cons_self
          · refine List.mem_cons_of_mem _ (ih ?_)
            simp_all
      exact key _ h
    next => exact ⟨{ msg := stamp s n }, by simp, rfl⟩

/-! ### Slots (R66, R73) -/

@[simp] theorem slotAt_setSlot_same {s : State} {t : Nat} (x : Slot) (h : t < s.tu.slots.length) :
    slotAt (setSlot t x s) t = x := by
  simp [slotAt, setSlot, setAt, h]

@[simp] theorem slotAt_setSlot_other {s : State} {t u : Nat} (x : Slot) (h : t ≠ u) :
    slotAt (setSlot t x s) u = slotAt s u := by
  simp [slotAt, setSlot, setAt, h]

@[simp] theorem slotAt_withdrawCopy (t u : Nat) (s : State) : slotAt (withdrawCopy t s) u = slotAt s u := by
  simp [slotAt]

theorem endSlot_slot {s : State} {t : Nat} (h : t < s.tu.slots.length) :
    slotAt (endSlot t s) t = { (slotAt s t).stopped with state := .free, owner := none } := by
  simp [endSlot, h]

theorem endSlot_other {s : State} {t u : Nat} (h : t ≠ u) : slotAt (endSlot t s) u = slotAt s u := by
  simp [endSlot, h]

/-- The FREE slot with the lowest tag is the one an ask is granted (R66). -/
theorem freeSlot_eq {s : State} {n : Nat} (hn : n < s.tu.slots.length) (hf : (slotAt s n).state = .free)
    (hb : ∀ u, u < n → (slotAt s u).state ≠ .free) : freeSlot s = some n := by
  have e : ∀ u (h : u < s.tu.slots.length), slotAt s u = s.tu.slots[u] := by
    intro u h; simp [slotAt, h]
  have hex : s.tu.slots.any (fun x => x.state == .free) = true :=
    List.any_eq_true.2 ⟨s.tu.slots[n], List.getElem_mem _, by rw [← e n hn]; simp [hf]⟩
  have hfi : s.tu.slots.findIdx (fun x => x.state == .free) = n := by
    rw [List.findIdx_eq hn, ← e n hn]
    refine ⟨by simp [hf], fun j hj => ?_⟩
    rw [← e j (by omega)]
    simp [hb j hj]
  simp [freeSlot, hex, hfi]

/-- Withdrawing the copy of a tag leaves the other requests in order (R35). -/
theorem withdrawCopy_requests (t : Nat) (s : State) :
    (withdrawCopy t s).link.requests.q = s.link.requests.q.filter fun m => m.msg.tag != t := by
  simp only [withdrawCopy, withdraw, Link.out]
  split
  · simp_all
  · split <;> simp_all [Link.setOut, bne]

theorem withdrawCopy_link (t : Nat) (s : State) :
    (withdrawCopy t s).link.replies = s.link.replies ∧ (withdrawCopy t s).link.notices = s.link.notices ∧
      (withdrawCopy t s).link.inbound = s.link.inbound ∧ (withdrawCopy t s).link.inbox = s.link.inbox ∧
      (withdrawCopy t s).link.waiters = s.link.waiters := by
  simp only [withdrawCopy, withdraw, Link.out, Link.setOut]
  split
  · simp
  · split <;> simp

/-! ### The stripe table and the pool (R82 to R85) -/

theorem entry_mapEntry (h : Home) (st : Nat) (g : Entry → Entry) (hg : ∀ e, (g e).stripe = e.stripe) :
    (h.mapEntry st g).entry st = (h.entry st).map g := by
  simp only [Home.entry, Home.mapEntry]
  induction h.table with
  | nil => rfl
  | cons e l ih =>
    rw [List.map_cons, List.find?_cons, List.find?_cons]
    by_cases he : e.stripe = st
    · simp [he, hg]
    · have hb : (e.stripe == st) = false := by simpa using he
      simp only [hb, Bool.false_eq_true, if_false]
      exact ih

theorem entry_mapEntry_op (h : Home) (st : Nat) (u : Entry → Option Op) :
    (h.mapEntry st fun e => { e with op := u e }).entry st = (h.entry st).map fun e => { e with op := u e } :=
  entry_mapEntry h st _ fun _ => rfl

@[simp] theorem opAt_setBank (s : State) (b : Bank) (st : Nat) : opAt (s.setBank b) st = opAt s st := rfl
@[simp] theorem opAt_addAsk (s : State) (a : Ask) (st : Nat) : opAt (addAsk a s) st = opAt s st := rfl

/-- An operation changed in place is the operation with the change (R95). -/
theorem opAt_mapOp (st : Nat) (g : Op → Op) (s : State) : opAt (mapOp st g s) st = (opAt s st).map g := by
  simp only [opAt, mapOp, State.setHome_home]
  rw [entry_mapEntry_op]
  cases s.home.entry st <;> rfl

@[simp] theorem opAt_mapAcc (st i : Nat) (g : Accum → Accum) (s : State) : opAt (mapAcc i g s) st = opAt s st := rfl
@[simp] theorem accAt_mapOp (st i : Nat) (g : Op → Op) (s : State) : accAt (mapOp st g s) i = accAt s i := rfl
@[simp] theorem mapOp_pool (st : Nat) (g : Op → Op) (s : State) : (mapOp st g s).home.pool = s.home.pool := rfl

theorem accAt_mapAcc {s : State} {i : Nat} (g : Accum → Accum) (h : i < s.home.accs.length) :
    accAt (mapAcc i g s) i = g (accAt s i) := by
  simp [accAt, mapAcc, setAt, h]

theorem accAt_mapAcc_clear (i : Nat) (s : State) : accAt (mapAcc i (fun _ => {}) s) i = {} := by
  simp only [accAt, mapAcc, setAt, State.setHome_home, List.getD_eq_getElem?_getD, List.getElem?_set]
  simp only [if_true]
  split
  · rfl
  · rfl

@[simp] theorem settle_pool (s : State) : (settle s).home.pool = s.home.pool := rfl
@[simp] theorem settle_accs (s : State) : (settle s).home.accs = s.home.accs := rfl
@[simp] theorem settle_handoffs (s : State) : (settle s).home.handoffs = s.home.handoffs := rfl
@[simp] theorem accAt_settle (i : Nat) (s : State) : accAt (settle s) i = accAt s i := rfl
theorem settle_eq (s : State) : settle s = { s with home := settleHome s.home } := rfl

theorem settle_table (s : State) : (settle s).home.table = s.home.table.filter fun e => !s.home.spent e := rfl

/-- An entry that is not spent stands after the home settles (R82). -/
theorem entry_settle {s : State} {st : Nat} {e : Entry} (h : s.home.entry st = some e) (hs : s.home.spent e = false) :
    (settle s).home.entry st = some e := by
  have key : ∀ l : List Entry, l.find? (fun e => e.stripe == st) = some e →
      (l.filter fun e => !s.home.spent e).find? (fun e => e.stripe == st) = some e := by
    intro l
    induction l with
    | nil => simp
    | cons x l ih =>
      intro hl
      rw [List.find?_cons] at hl
      split at hl
      next hx =>
        cases hl
        rw [List.filter_cons_of_pos (by simp [hs]), List.find?_cons, hx]
      next hx =>
        by_cases hp : s.home.spent x = true
        · rw [List.filter_cons_of_neg (by simp [hp])]; exact ih hl
        · rw [List.filter_cons_of_pos (by simpa using hp), List.find?_cons, hx]; exact ih hl
  exact key _ h

/-- An operation stands after the home settles (R82, R96). -/
theorem opAt_settle {s : State} {st : Nat} {op : Op} (h : opAt s st = some op) : opAt (settle s) st = some op := by
  simp only [opAt] at h ⊢
  cases he : s.home.entry st with
  | none => simp [he] at h
  | some e =>
    have ho : e.op = some op := by simpa [he] using h
    rw [entry_settle he (by simp [Home.spent, ho])]
    exact ho

theorem hasEntry_ensure (h : Home) (st : Nat) : (h.ensure st).hasEntry st = true := by
  simp only [Home.ensure]
  split
  · assumption
  · simp [Home.hasEntry]

@[simp] theorem ensure_pool (h : Home) (st : Nat) : (h.ensure st).pool = h.pool := by
  simp only [Home.ensure]; split <;> rfl

theorem takePlace_pool (p : Place) (s : State) : (takePlace p s).home.pool = s.home.pool ++ [p] := by
  simp [takePlace]

/-- The stripe of a place taken has an entry, also after the home settles (R82, R83). -/
theorem hasEntry_of_place {s : State} {p : Place} (hp : p ∈ s.home.pool) (he : s.home.hasEntry p.stripe = true) :
    (settle s).home.hasEntry p.stripe = true := by
  obtain ⟨e, hmem, hst⟩ := List.any_eq_true.1 he
  have hst' : e.stripe = p.stripe := by simpa using hst
  refine List.any_eq_true.2 ⟨e, ?_, hst⟩
  rw [settle_table]
  refine List.mem_filter.2 ⟨hmem, ?_⟩
  have : (s.home.places e.stripe).isEmpty = false := by
    rw [← Bool.not_eq_true, List.isEmpty_iff]
    intro h
    have : p ∈ s.home.places e.stripe := by simp [Home.places, hp, hst']
    simp [h] at this
  simp [Home.spent, this]

theorem takePlace_settled (p : Place) (s : State) : (settle (takePlace p s)).home.hasEntry p.stripe = true := by
  refine hasEntry_of_place ?_ ?_
  · simp [takePlace]
  · simpa [takePlace, Home.hasEntry] using hasEntry_ensure s.home p.stripe

/-! ### An operation's steps (R95, R128) -/

/-- A step of an operation that has nothing outstanding: the first ask joins the slot-request list, the others wait their
turn, and the claims become due together. -/
theorem beginStep_spec {st : Nat} {op : Op} {s : State} (step : OpStep) (asks : List Ask) (claims : List Claim)
    (h : opAt s st = some op) (hc : op.complete = true) (ha : ∀ a ∈ s.tu.asks, a.owner ≠ .op st) :
    opAt (beginStep st step asks claims s) st = some { op with
      step := step, toAsk := asks.drop 1, outstanding := min asks.length 1, claims := claims.length } ∧
    (beginStep st step asks claims s).tu = { s.tu with asks := s.tu.asks ++ asks.take 1 } ∧
    (beginStep st step asks claims s).bank = { s.bank with homeDue := s.bank.homeDue ++ claims } ∧
    (beginStep st step asks claims s).home.accs = s.home.accs ∧
    (beginStep st step asks claims s).home.pool = s.home.pool := by
  obtain ⟨⟨h1, h2⟩, h3⟩ : (op.toAsk = [] ∧ op.outstanding = 0) ∧ op.claims = 0 := by simpa [Op.complete] using hc
  have ha' : s.tu.asks.any (fun a => a.owner == .op st) = false := by simpa using ha
  simp only [beginStep, foldl_dueClaim_home, askNext, State.setBank_tu, mapOp_keeps, ha', opAt_setBank, opAt_mapOp, h,
    Option.map_some, Bool.false_eq_true, if_false]
  cases asks with
  | nil =>
    refine ⟨?_, ?_, rfl, rfl, rfl⟩
    · rw [opAt_setBank, opAt_mapOp, h]; simp [h2, h3]
    · simp [mapOp]
  | cons a l =>
    refine ⟨?_, ?_, rfl, rfl, rfl⟩
    · rw [opAt_addAsk, opAt_mapOp, opAt_setBank, opAt_mapOp, h]; simp [h2, h3]
    · simp [addAsk, mapOp]

/-- The work of an offset of an AUDIT's repair set begins with its gathers and its parity read, in a fresh accumulator
(R153). -/
theorem auditOffset_cons_spec {st : Nat} {op : Op} {s : State} (o : Nat) (l : List Nat) (h : opAt s st = some op)
    (hc : op.complete = true) (ha : ∀ a ∈ s.tu.asks, a.owner ≠ .op st) (hx : op.acc < s.home.accs.length) :
    opAt (auditOffset st (o :: l) s) st = some { op with
      step := .offGather, repairSet := o :: l, results := List.replicate s.d .awaited, parity := []
      toAsk := ((positions s).map (gatherAsk s.n st o 1)).drop 1, outstanding := min s.d 1, claims := 1 } ∧
    (auditOffset st (o :: l) s).tu.asks = s.tu.asks ++ ((positions s).map (gatherAsk s.n st o 1)).take 1 ∧
    accAt (auditOffset st (o :: l) s) op.acc = freshAccum s.w ∧
    (auditOffset st (o :: l) s).bank = { s.bank with homeDue := s.bank.homeDue ++ [parityWordRead s st o] } ∧
    (auditOffset st (o :: l) s).sweep = s.sweep ∧ (auditOffset st (o :: l) s).counters = s.counters := by
  let u := mapOp st (fun op => { op with repairSet := o :: l, results := List.replicate s.d .awaited, parity := [] })
    (mapAcc op.acc (fun _ => freshAccum s.w) s)
  have hu : opAt u st = some { op with repairSet := o :: l, results := List.replicate s.d .awaited, parity := [] } := by
    rw [opAt_mapOp, opAt_mapAcc, h, Option.map_some]
  have e : auditOffset st (o :: l) s =
      beginStep st .offGather ((positions s).map (gatherAsk s.n st o 1)) [parityWordRead s st o] u := by
    simp only [auditOffset, h]; rfl
  have hd : ((positions s).map (gatherAsk s.n st o 1)).length = s.d := by simp [positions]
  obtain ⟨e1, e2, e3, e4, -⟩ := beginStep_spec .offGather ((positions s).map (gatherAsk s.n st o 1))
    [parityWordRead s st o] hu hc ha
  rw [e]
  refine ⟨?_, congrArg (·.asks) e2, ?_, e3, ?_, ?_⟩
  · rw [e1, hd]; rfl
  · exact (congrArg (fun x => x.getD op.acc {}) e4).trans (show accAt u op.acc = freshAccum s.w from accAt_mapAcc (fun _ => freshAccum s.w) hx)
  · simp [u]
  · simp [u]

/-- A member made unavailable: its result is recorded so, and no ask of the operation's list is for it any more (R95). -/
theorem memberUnavailable_spec {st : Nat} {op : Op} {s : State} (k : Nat) (h : opAt s st = some op) :
    ∃ op', opAt (memberUnavailable st k s) st = some op' ∧ op'.results = op.results.set k .unavailable ∧
      (∀ a ∈ op'.toAsk, a ∈ op.toAsk ∧ a.f.position ≠ k) ∧ op'.outstanding = op.outstanding ∧ op'.claims = op.claims := by
  have e : opAt (memberUnavailable st k s) st = some { op with
      results := setAt op.results k .unavailable, toAsk := op.toAsk.filter fun a => a.f.position != k } := by
    rw [memberUnavailable, opAt_mapOp, h, Option.map_some]
  exact ⟨_, e, rfl, fun a ha => by simpa using ha, rfl, rfl⟩

/-- Taking words into the accumulator changes no operation (R85). -/
theorem opAt_accumulate (st st' first : Nat) (ws : List (Option Word)) (s : State) :
    opAt (accumulate st' first ws s) st = opAt s st := by
  simp only [accumulate]
  (repeat' split) <;> rfl

/-- An operation closed is absent, its accumulator is freed, and at most the recovered counter and the home changed (R96,
R139). -/
theorem closeOp_spec {st : Nat} {op : Op} {s : State} (h : opAt s st = some op) :
    opAt (closeOp st s) st = none ∧ accAt (closeOp st s) op.acc = {} ∧
    (closeOp st s).home.pool = s.home.pool ∧
    (closeOp st s).counters = if (op.kind = .recover ∨ op.kind = .mergeWrite) ∧ op.ok = true then
      { s.counters with recovered := satAdd s.counters.recovered 1 } else s.counters := by
  simp only [closeOp, h]
  refine ⟨?_, ?_, ?_, ?_⟩
  · simp only [opAt, State.setHome_home]
    rw [entry_mapEntry_op]
    generalize Home.entry _ st = x
    cases x <;> rfl
  · split <;> exact accAt_mapAcc_clear ..
  · split <;> rfl
  · split <;> simp_all [countRecovered, mapAcc]

/-- Heads of the repair queue are dropped while their home is unavailable (R136). -/
theorem judgeRepair_spec (s : State) (l : List (Nat × Nat)) :
    (judgeRepair s l).1 + (judgeRepair s l).2.length = l.length ∧
    (∃ front, l = front ++ (judgeRepair s l).2 ∧
      ∀ x ∈ front, (viewAt s (homeOf s.n x.1)).state.available = false) ∧
    ∀ x rest, (judgeRepair s l).2 = x :: rest → (viewAt s (homeOf s.n x.1)).state.available = true := by
  induction l with
  | nil => simp [judgeRepair]
  | cons y l ih =>
    simp only [judgeRepair]
    split
    next h => exact ⟨by simp, ⟨[], by simp⟩, by rintro x rest h2; cases h2; exact h⟩
    next h =>
      obtain ⟨i1, ⟨front, i2, i3⟩, i4⟩ := ih
      refine ⟨by simp; omega, ⟨y :: front, by simp [← i2], ?_⟩, i4⟩
      intro x hx
      rcases List.mem_cons.1 hx with rfl | hx
      · simpa using h
      · exact i3 x hx

end Sys2Proof.Machine
end

