-- ==== Sys2Proof/Tests/Slice0.lean ====
section
/-! SUPPORT. The modeller's own tests: ill-formed commands refused, single steps on values of the spec's worked examples, and
for each statement with hypotheses a witness that meets them. -/

open Sys2Proof Sys2Proof.Machine

namespace Sys2Proof.Tests

/-! ### Small states -/

/-- The example group's straps: N = 4, U = 64, B = 64 KiB, station `sn`. -/
def straps (sn : BitVec 3) : StrapPins := { sn := sn, gs := 2, us := 0, bs := 0, sm := false, ap := 2 }

/-- Station `sn` of the example group in normal service: all ACTIVE in incarnation 1. -/
def station (sn : BitVec 3) : State := { State.reset with
  straps := straps sn
  inReset := false
  mem := { ownState := .active, ownInc := 1
           views := List.replicate 4 { state := .active, inc := 1 } ++ List.replicate 4 {} } }

/-- Station 0, home of stripe 24. -/
def s0 : State := station 0

/-- Station 0 REBUILDING, its pointer at stripe 24. -/
def reb : State := (s0.setMem { s0.mem with ownState := .rebuilding }).setSweep { rebuildPtr := 24, rebuildStep := .asking }

/-- Station `j`'s view entry in another state. -/
def seen (j : Nat) (st : ViewState) (s : State) : State := setView j { viewAt s j with state := st } s

/-- A message from station 3 to station 0. -/
def msg (k : Kind) : Msg := { kind := k, source := 3, dest := .station 0, sState := .active, sInc := 1, tag := 2, seq := true }

/-- A request for word 13 of stripe `st` from station 3. -/
def req (k : Kind) (st pos : Nat) (lanes : Lanes := 0xF#4) : Msg :=
  { msg k with f := { stripe := st, position := pos, offset := 13, lanes := lanes, payload := [0x5A5A0F0F#32] } }

/-- The message heads the inbound queue. -/
def inbound (m : Msg) (s : State) : State := s.setLink { s.link with inbound := m :: s.link.inbound }

/-- The reply heads the inbox, and slot 2 awaits one from station 3 to a request of kind `k` for owner `o`. -/
def replied (m : Msg) (k : Kind) (o : Owner) (s : State) (st : SlotState := .sent) (f : Fields := {}) : State :=
  (setSlot 2 { seqs := List.replicate 8 true, state := st, owner := some o, kind := k, dest := 3, f := f, response := some 40
               held := if st = .held then some 10000 else none, backoff := if st = .backoff then some 5 else none } s).setLink
    { s.link with inbox := m :: s.link.inbox }

/-- The state a step answers, `s0` if none. -/
def after (o : Host.Outcome State Fault Refusal) : State :=
  match o with
  | .next t => t
  | .fault _ => s0
  | .refused _ => s0

/-! ### Ill-formed commands, one for each check -/

theorem smoke_hostWrite_in_window : WellFormed (.hostWrite 0x1FFFF00 0xF 1) = false := by decide
theorem smoke_hostWrite_outside : WellFormed (.hostWrite 0x1FFFEFC 0xF 1) = true := by decide
theorem smoke_windowWriteOther_cause : WellFormed (.windowWriteOther 20 0xF 1) = false := by decide
theorem smoke_windowWriteOther_enables : WellFormed (.windowWriteOther 21 0xF 1) = false := by decide
theorem smoke_windowWriteOther : WellFormed (.windowWriteOther 22 0xF 1) = true := by decide
theorem smoke_contention_equal_keys : WellFormed (.busContention [3, 9, 3]) = false := by decide
theorem smoke_contention : WellFormed (.busContention [3, 9, 11]) = true := by decide
theorem smoke_no_row_has_bits : decodeTableWord 32 0x12345678 = none := by decide

/-! ### Worked values of the spec -/

/-- Section 1.3: address 0x1234 of the example group. -/
theorem test_mapping : placeOf (straps 0) 0x1234 = ⟨24, 0, 13⟩ ∧ homeOf 4 24 = 0 ∧ holderOf 4 24 0 = 1 ∧
    4 * bankIndex (straps 0) 24 13 = 0x634 := by decide
/-- Section 1.4: the parity of 0x000001FF, and that of 0. -/
theorem test_parity : parityOf 0x000001FF = 0b1101#4 ∧ parityOf 0 = 0b1111#4 := by decide
/-- Section 1.4: with lane 3's parity bit flipped, lanes 0011 are good and 1111 are not. -/
theorem test_lanes : goodIn 0b0011#4 ⟨0x000001FF, 0b0101⟩ = true ∧ isGood ⟨0x000001FF, 0b0101⟩ = false := by decide
/-- R26: the check word of the bytes 0x31 to 0x39. -/
theorem test_check_word : checkWord [0x31, 0x32, 0x33, 0x34, 0x35, 0x36, 0x37, 0x38, 0x39] = 0x29B1#16 := by
  decide +kernel
/-- Chapter 4, a worked sequence: lanes 0011 of 0x0000AABB into 0x11223344, and its delta. -/
theorem test_merge : mergeLanes 0b0011#4 0x0000AABB 0x11223344 = 0x1122AABB ∧
    (holderAnswer .update { lanes := 0b0011#4, payload := [0x0000AABB] } [goodWord 0x11223344]).f.payload = [0x000099FF] := by
  decide
/-- Chapter 6, a full write: the parity of word 13 before and after. -/
theorem test_full_write : xorWords [0x11223344, 0x0F0F0F0F, 0x00FF00FF] = 0x1ED23CB4 ∧
    mergeDecision (.delta 0x4B783C4B) (goodWord 0x1ED23CB4) = some (goodWord 0x55AA00FF) := by decide
/-- Section 1.6: with claims of the holder and the sweep unit waiting and the pointer at the sweep unit, it is granted. -/
theorem test_rotation : arbiterPick { pointer := .sweep
                                      holderDue := [⟨400, .merge (.update 0xF 1), .holder⟩]
                                      sweepDue := [⟨0, .burstWrite [], .unitStore⟩] } = some .sweep := by decide
/-- Chapter 10: the RANGE write to 0x50002 is counted, recorded and flagged. -/
theorem test_range_write : (after (exec (.hostWrite 0x50002 0xF 1) s0)).port.firstFault = some (0x50000, .range) ∧
    (after (exec (.hostWrite 0x50002 0xF 1) s0)).counters.writeFaults = 1 := by decide
/-- Chapter 10: the RANGE read of 0x60000 completes with ERR and counts nothing. -/
theorem test_range_read : (after (exec (.hostRead 0x60000 0xF) s0)).port.lerr = true ∧
    (after (exec (.hostRead 0x60000 0xF) s0)).counters.writeFaults = 0 := by decide
/-- R43: release with valid straps makes the station JOINING in the next incarnation. -/
theorem test_release : (after (exec (.resetRelease (straps 3)) State.reset)).mem.ownState = .joining ∧
    (after (exec (.resetRelease (straps 3)) State.reset)).mem.ownInc = 1 := by decide
/-- R196: the longest and the shortest messages the spec computes, a STORE of 64 words and a HOLD. -/
theorem test_message_sizes : (encodeFrame { req .store 24 0 with f := { count := 64, payload := List.replicate 64 0 } }).length = 274 ∧
    (encodeFrame (msg .hold)).length = 6 := by decide +kernel

/-! ### Witnesses: a state and operands that meet the hypotheses of each statement, clause by clause -/

/-- A read of one started local entry, for word 0x1234. -/
def entry (isWrite : Bool) (phase : Phase) : LocalEntry :=
  { isWrite := isWrite, addr := 0x1234, stripe := 24, position := 0, offset := 13, lanes := 0xF#4, data := 7, phase := phase }

/-- The port holds these entries. -/
def entries (l : List LocalEntry) (s : State) : State := s.setPort { s.port with entries := l }

/-- The host holds an access on its pins. -/
def held (a : Access) (s : State) : State := s.setPort { s.port with access := some a }

/-- A read and a write of word 0x1234. -/
def readAccess : Access := { isWrite := false, addr := 0x1234, lanes := 0xF#4, data := 0 }

/-- The claim `op` is in progress for the home at bank word `first`. -/
def busy (first : Nat) (op : BankOp) (work : ClaimFor) (s : State) : State :=
  s.setBank { s.bank with busy := some { who := .home, claim := ⟨first, op, work⟩ } }

/-- A place of stripe 24 for a WRITE from station 3. -/
def place (use : Use) : Place :=
  { stripe := 24, kind := .write, who := .peer 3 2 true, position := 0, offset := 13, lanes := 0xF#4, data := 7, use := use }

/-- Stripe 24's entry, with places. -/
def homed (ps : List Place) (s : State) (op : Option Op := none) (rec : Option RecList := none) : State :=
  s.setHome { s.home with table := [{ stripe := 24, op := op, recompute := rec }], pool := ps }

/-- An operation of stripe 24 for station 3, in accumulator 0. -/
def operation (k : OpKind) (step : OpStep) : Op :=
  { kind := k, who := .peer 3 2 true, acc := 0, position := 0, offset := 13, lanes := 0xF#4, step := step
    results := [.awaited, .gathered [false], .gathered [false]] }

/-- Accumulator 0 in use, its flag at offset 13 as given. -/
def gathering (op : Op) (flag : Bool) : State :=
  let s := homed [] s0 (some op)
  s.setHome { s.home with accs := [{ used := true, words := List.replicate 16 0, flags := List.replicate 13 false ++ [flag] }, {}] }

/-- R20: a merge cut by RESETn writes nothing, whatever the accesses made. -/
theorem test_merge_cut :
    (after (exec (.resetnAsserted 2) (busy 0 (.merge (.direct 0xF#4 1)) .holder s0))).bank.words = [] := by decide
/-- R84: of an urgent audit and a conversion made after its admission, the conversion is the head. -/
theorem test_conversion_before_urgent_audit :
    ((homed [place .waitUrgent, place .waitHead] s0).home.firstWait 24).map (·.use) = some .waitHead := by decide
/-- R95: a member whose STORE ended NOT_READY is not asked again; the other members are. -/
theorem test_failed_store_not_asked_again :
    let ask (k : Nat) : Ask := { owner := .op 24, kind := .store, dest := 3, f := { stripe := 24, position := k, count := 1 } }
    let s := homed [] s0 (some { operation .rebuild .store with toAsk := [ask 1, ask 2], outstanding := 1 })
    (opAt (opOutcome 24 .store { stripe := 24, position := 2, count := 1 } .notReady s) 24).map (·.toAsk) = some [ask 1] := by
  decide
/-- R201: while in reset the bank port's enables are high and nothing is driven; in service no level is given. -/
theorem test_bank_pins : (bankPins State.reset).map (fun p => (p.bce, p.bwe, p.boe, p.driven)) = some (true, true, true, false) ∧
    (bankPins s0).isNone = true := by decide

theorem sound_s0 : (s0.setPending [.idleGap]).Sound := by
  refine ⟨⟨?_, ?_, ?_, ?_, ?_, ?_, ?_⟩, ⟨?_, ?_, ?_, ?_⟩, ⟨?_, ?_, ?_, ?_, ?_, ?_⟩, ⟨?_, ?_, ?_, ?_⟩, ?_⟩ <;> decide

theorem witness_StepRunsTheFrontCommand :
    (s0.setPending [.idleGap, .slotGrant]).pending = .idleGap :: [.slotGrant] ∧ s0.pending = [] := by decide

/-- A FAIL naming station 0 in incarnation 1. -/
def failSelf : Msg := { msg .fail with dest := .all, tag := 0, seq := false, target := 0, targetInc := 1 }

/-- A FAIL naming station 1 in incarnation 1. -/
def fail1 : Msg := { failSelf with target := 1 }

theorem witness_RecordsChangeOnlyByTheirCommands :
    (∃ t, exec .idleGap s0 = .next t) ∧
    (∃ t, exec .fail (inbound fail1 s0) = .next t ∧ t.mem.ownInc = (inbound fail1 s0).mem.ownInc) ∧
    (∃ t, exec (.resetRelease (straps 3)) State.reset = .next t ∧ t.straps ≠ State.reset.straps) ∧
    WellFormed (.enablesWrite 1 1) = true ∧ ∃ t, exec (.enablesWrite 1 1) s0 = .next t ∧ t.enables ≠ s0.enables :=
  ⟨⟨_, rfl⟩, ⟨_, rfl, by decide⟩, ⟨_, rfl, by decide⟩, rfl, ⟨_, rfl, by decide⟩⟩

theorem witness_WordsAreWrittenGoodOrVoid :
    Memory.wf s0.bank.words = true ∧ ∃ t, exec .bankClaimCompletion (busy 16383 (.wordWrite (some 5)) (.parityWrite 24) s0) = .next t :=
  ⟨rfl, ⟨_, rfl⟩⟩

theorem witness_StepsKeepStationSound :
    (s0.setPending [.idleGap]).Sound ∧ ∃ t, step (s0.setPending [.idleGap]) = .next t := ⟨sound_s0, ⟨_, rfl⟩⟩

theorem witness_StepsKeepReplyPlaces :
    let s := (s0.setLink { s0.link with replies := { q := List.replicate 8 { msg := msg .hold } } }).setPending [.idleGap]
    placesInUse s ≤ 8 ∧ ∃ t, step s = .next t := ⟨by decide, ⟨_, rfl⟩⟩

theorem witness_CountersNeverFall :
    isReset .idleGap = false ∧ (s0.setCounters ⟨65535, 65535, 65535, 65535, 65535, 65535⟩).CountersFit ∧
    ∃ t, exec .idleGap (s0.setCounters ⟨65535, 65535, 65535, 65535, 65535, 65535⟩) = .next t :=
  ⟨rfl, ⟨by decide, by decide, by decide, by decide, by decide, by decide⟩, ⟨_, rfl⟩⟩

theorem witness_IncarnationMovesOnlyAtJoins :
    (∃ t, exec .powerOnReset s0 = .next t ∧ t.mem.ownInc ≠ s0.mem.ownInc) ∧
    (∃ t, exec (.resetRelease (straps 0)) State.reset = .next t ∧ t.mem.ownInc ≠ State.reset.mem.ownInc) ∧
    ∃ t, exec .fail (inbound failSelf s0) = .next t ∧ t.mem.ownInc ≠ s0.mem.ownInc :=
  ⟨⟨_, rfl, by decide⟩, ⟨_, rfl, by decide⟩, ⟨_, rfl, by decide⟩⟩

/-- A HELLO of station 3. -/
def hello3 : Msg := { msg .hello with dest := .all, tag := 0, seq := false, sState := .joining, sInc := 2 }

theorem witness_OnlyHelloLiftsFailure :
    let f := seen 3 .failed s0
    let lifted (t : State) : Prop := (viewAt t 3).state ≠ .failed
    (f.mem.views.length = 8 ∧ 3 < 8 ∧ 3 ≠ f.own ∧ (viewAt (inbound hello3 f) 3).state = .failed ∧
      (viewAt (inbound failSelf f) 3).state = .failed) ∧
    (∃ t, exec .hello (inbound hello3 f) = .next t ∧ lifted t) ∧
    (∃ t, exec .fail (inbound failSelf f) = .next t ∧ lifted t) ∧
    ∃ t, exec .powerOnReset f = .next t ∧ lifted t :=
  ⟨by decide, ⟨_, rfl, by decide⟩, ⟨_, rfl, by decide⟩, ⟨_, rfl, by decide⟩⟩

/-- A STORE of the most words, at the last stripe station 0 holds. -/
def longStore : Msg :=
  { msg .store with f := { stripe := 1023, position := 0, count := 16, payload := List.replicate 16 0xFFFFFFFF#32
                           voids := List.replicate 16 true } }

theorem witness_FramesReadBack : longStore.Sendable (straps 0) := by
  refine ⟨by decide, fun j h => ?_, by decide, by decide, by decide, by decide, by decide +kernel⟩
  cases h
  decide

theorem witness_RolesFollowLayout : 7 < 8 ∧ 6 < 8 - 1 := by decide

theorem witness_PlacementIsOneToOne :
    strapsValid (straps 3) = true ∧ 196607 < dataUnits (straps 3) * bankBytes (straps 3) ∧
    (⟨1023, 2, 15⟩ : Placement).stripe < stripeCount (straps 3) ∧
    (⟨1023, 2, 15⟩ : Placement).position < dataUnits (straps 3) ∧
    (⟨1023, 2, 15⟩ : Placement).offset < unitWords (straps 3) := by decide

theorem witness_AddressesHaveOneClass :
    classOf (straps 0) 0x1FFFF00 = .window ∧ classOf (straps 0) 0x1FFFFFF = .window ∧ classOf (straps 0) 0x1FFFEFF = .range ∧
    classOf (straps 0) 0x2FFFF = .shared ∧ classOf (straps 0) 0x30000 = .range ∧
    classOf State.reset.straps 0 = .inert ∧ classOf State.reset.straps 0x1FFFEFF = .inert ∧
    windowIndex 0x1FFFFFF = some 63 := by decide

theorem witness_LanesAreJudgedAndMerged :
    (∀ i, i < 4 → (0b1110#4).getLsbD i = false → laneGood ⟨1, 0⟩ i = true) ∧
    (∃ i, i < 4 ∧ (0b1110#4).getLsbD i = false ∧ laneGood voidWord i = false) ∧
    isGood (goodWord 5) = true ∧ isGood voidWord = false := by decide

theorem witness_DeltasKeepParity :
    0 < [0x11223344#32, 0x0F0F0F0F].length ∧ [0x11223344#32, 0x0F0F0F0F][0]? = some (goodWord 0x11223344).data ∧
    isGood (goodWord 0x11223344) = true ∧ ({ payload := [7] } : Fields).payload = [7] := by decide

theorem witness_AccumulatorReconstructs : 15 < 16 ∧ none ∈ [some (3 : Word), none] := by decide

theorem witness_FoldsCompareStripes : ∀ u ∈ [[1, 2], [3, (4 : Word)]], u.length = 2 := by decide

theorem witness_ResetnResetsAllButItsRecord :
    (held readAccess s0).port.access = some readAccess ∧ (held readAccess s0).port.ack = false ∧ readAccess.isWrite = false ∧
    (s0.port.access = none ∧ (held { readAccess with isWrite := true } s0).port.access = some { readAccess with isWrite := true }) ∧
    s0.bank.busy = none ∧
    (∃ b, (busy 0 (.burstWrite [some 1, none]) (.parityWrite 0) s0).bank.busy = some b ∧ b.claim.op = .burstWrite [some 1, none]) ∧
    ∃ b, (busy 0 (.merge (.delta 1)) (.delta 0 0) s0).bank.busy = some b ∧ b.claim.op = .merge (.delta 1) :=
  ⟨rfl, rfl, rfl, ⟨rfl, rfl⟩, rfl, ⟨_, rfl, rfl⟩, ⟨_, rfl, rfl⟩⟩

theorem witness_ReleaseSamplesTheStraps :
    State.reset.inReset = true ∧ strapsValid (straps 3) = true ∧ State.reset.mem.ownState = .inert ∧
    State.reset.link.notices.q = [] ∧ ({ straps 0 with gs := 7 } : StrapPins).gs = 7 ∧
    ({ straps 0 with us := 3 } : StrapPins).us = 3 ∧ (straps 4).gs.toNat + 2 ≤ (straps 4).sn.toNat := by decide

theorem witness_HostAccessesBySort :
    s0.port.access = none ∧ State.reset.inReset = true ∧ s0.inReset = false ∧ (0xF#4 : Lanes) ≠ 0 ∧
    classOf s0.straps 0x1FFFF00 = .window ∧ classOf State.reset.straps 0 = .inert ∧ classOf s0.straps 0x30000 = .range ∧
    classOf s0.straps 0x2FFFC = .shared ∧ (entries (List.replicate 7 (entry false .waiting)) s0).port.entries.length < 8 ∧
    8 ≤ (entries (List.replicate 8 (entry false .waiting)) s0).port.entries.length := by decide

theorem witness_WindowWritesActOnLaneZero :
    s0.port.access = none ∧ s0.inReset = false ∧ (1#4 : Lanes) ≠ 0 ∧ WellFormed (.windowWriteOther 63 1 0) = true := by decide

theorem witness_WindowReadsAsLaidOut :
    s0.port.firstFault = none ∧ (s0.setPort { s0.port with firstFault := some (0x50000, .range) }).port.firstFault =
      some (0x50000, .range) := by decide

theorem witness_AccessesGoOn :
    let s := (held readAccess s0).setPort { (held readAccess s0).port with stalled := true }
    let e := entries [entry false .waiting] s0
    (s.port.access = some readAccess ∧ s.port.stalled = true ∧ s.port.entries.length < 8) ∧
    (s0.setPort { s0.port with ack := true }).port.ack = true ∧
    e.port.entries = [] ++ entry false .waiting :: [] ∧ serving e = true ∧ e.port.entries.countP (·.started) < 4 := by decide

theorem witness_ContentionGoesToLowestKey :
    let offers (q : OutSel) : State := s0.setLink (s0.link.setOut q { q := [{ msg := msg .hold }] })
    keysDistinct [0, 8] = true ∧ live State.reset = false ∧ live s0 = true ∧ s0.link.bus = .free ∧ ownOffer s0 = none ∧
    ownOffer (offers .reply) = some (.reply, { msg := msg .hold }) ∧
    ownOffer (offers .notice) = some (.notice, { msg := msg .hold }) ∧
    ownOffer (offers .request) = some (.request, { msg := msg .hold }) ∧
    (∀ k ∈ [1#4, 8#4], 0 < k.toNat) ∧ ∃ k ∈ [1#4], k.toNat < 8 := by decide

/-- The bus carries another station's message. -/
def carrying (s : State) : State := s.setLink { s.link with bus := .other }

theorem witness_ReceivedMessagesAreAnswered :
    let s := carrying s0
    let bs := encodeFrame (req .write 24 0)
    let m := { req .write 24 0 with f := (req .write 24 0).f }
    s.link.bus = .other ∧ live s = true ∧ addressedTo s.own bs = true ∧ decodeFrame s.straps bs = .ok m ∧
    inboundFull m.kind s = false ∧ m.kind ≠ .hello ∧ (viewAt s m.source).state ≠ .failed ∧ (viewAt s m.source).inc = m.sInc ∧
    (viewAt (seen 3 .absent s) 3).state = .absent ∧
    decodeFrame s.straps (encodeFrame hello3) = .ok hello3 ∧ addressedTo s.own (encodeFrame hello3) = true ∧
    live State.reset = false ∧ addressedTo s.own [0, 0x10] = false ∧ decodeFrame s.straps [0, 0, 0] = .badCheck ∧
    inboundFull m.kind (s.setLink { s.link with inbound := List.replicate 16 m }) = true ∧
    ((viewAt (seen 3 .failed s) 3).state = .failed ∧ (viewAt (seen 3 .failed s) 3).inc = m.sInc) ∧
    (viewAt s 3).state ≠ .absent ∧ (viewAt s 3).inc ≠ 2 := by decide +kernel

/-- The own message from a queue ends; slot 2 is QUEUED. -/
def sending (sel : OutSel) (k : Kind) : State :=
  let m := msg k
  (setSlot 2 { state := .queued, owner := some (.port 0), kind := k, dest := 3 } s0).setLink
    { (s0.link.setOut sel { q := [{ msg := m }], refusals := 30 }) with bus := .own sel m false }

theorem witness_SendsEndByTheLines :
    let s := sending .request .write
    let r := sending .reply .hold
    let last := s.setLink { s.link with
      requests := { q := [{ msg := { msg .write with dest := .station 3 } }], refusals := 31, unanswered := 1 } }
    let all (m : Msg) (n : Nat) : State := s0.setLink { s0.link with
      notices := { q := [{ msg := m }], refusals := n }, bus := .own .notice m false }
    (s.mem.window ≠ .expired ∧ (msg .write).kind ≠ .hello ∧ s.link.bus = .own .request (msg .write) false ∧
      s.link.requests.q = [{ msg := msg .write }] ∧ s.link.requests.refusals < 31 ∧ (msg .write).dest = .station 0 ∧
      s.link.requests.unanswered = 0 ∧ (msg .write).kind.isRequest = true ∧ (slotAt s 2).state = .queued) ∧
    (r.link.bus = .own .reply (msg .hold) false ∧ r.link.replies.q = [{ msg := msg .hold }] ∧
      (msg .hold).kind.isRequest = false) ∧
    (last.link.bus = .own .request (msg .write) false ∧ last.link.requests.refusals = 31 ∧
      last.link.requests.unanswered = 1 ∧ last.mem.views.length = 8 ∧ 3 ≠ last.own ∧ (viewAt last 3).state = .active) ∧
    ((all hello3 30).link.notices.q = { msg := hello3 } :: [] ∧ hello3.dest = .all ∧ hello3.kind.isRequest = false ∧
      (all hello3 30).link.notices.refusals < 31 ∧ 31 ≤ (all hello3 31).link.notices.refusals) ∧
    s0.link.bus = .free ∧ ownOffer s0 = none := by decide

theorem witness_HeldReplyTakesFreedPlace :
    let m : OutMsg := { msg := { msg .writeRsp with dest := .station 3 } }
    let s := s0.setLink { s0.link with waiters := [.reply m], replies := { q := List.replicate 7 m } }
    s.link.waiters = .reply m :: [] ∧ 0 < freePlaces s ∧ m.op = none ∧ replyDropped s m.msg = false := by decide

/-- An ask waits for a slot. -/
def asking (o : Owner) (k : Kind) (dest : Nat) (s : State) : State :=
  s.setTu { s.tu with asks := [{ owner := o, kind := k, dest := dest, f := {} }] }

theorem witness_OldestAskGetsLowestSlot :
    let s := asking (.port 0x1234) .write 3 (setSlot 0 { state := .sent } s0)
    s.tu.slots.length = 8 ∧ (slotAt s 1).state = .free ∧ (∀ u, u < 1 → (slotAt s u).state ≠ .free) ∧
    (∀ st, Owner.port 0x1234 ≠ .op st) ∧ (3 ≠ s.own ∧ (viewAt s 3).state.available = true ∧ 3 < (slotAt s 1).seqs.length) ∧
    (0 = s.own ∧ Kind.write = .write) ∧ (0 = s.own ∧ (Kind.read ≠ .write ∧ Kind.read ≠ .recover ∧ Kind.read ≠ .rebuild)) := by
  refine ⟨rfl, rfl, by decide, ?_, by decide, by decide, by decide⟩
  intro st h
  cases h

theorem witness_OldestAskGetsLowestSlot_ends :
    let op : Op := { operation .recover .gather with toAsk := [{ owner := .op 24, kind := .gather, dest := 3, f := {} }] }
    let s := asking (.op 24) .gather 2 (homed [] s0 (some op))
    let gone (e : LocalEntry) := entries [e] (seen 3 .failed (asking (.port 0x1234) (if e.isWrite then .write else .read) 3 s0))
    let next (e : LocalEntry) := if e.isWrite then holderOf 4 24 0 else homeOf 4 24
    (s.tu.asks = { owner := .op 24, kind := .gather, dest := 2, f := {} } :: [] ∧ opAt s 24 = some op ∧ 2 ≠ s.own ∧
      (viewAt s 2).state.available = true) ∧
    (∀ e ∈ [entry true .first, entry false .first, entry true .second, entry false .second],
      startedEntry (gone e) 0x1234 = some e ∧ 3 ≠ (gone e).own ∧ (viewAt (gone e) 3).state.available = false ∧
      reachable (gone e) (next e) = true) ∧
    reachable (seen 1 .failed (gone (entry true .first))) (next (entry true .first)) = false := by decide

/-- Slot 7 to station 3. -/
def slot7 (st : SlotState) (dest : Nat) (attempts : Nat) : State :=
  setSlot 7 { state := st, owner := some (.port 0x1234), kind := .write, dest := dest, attempts := attempts
              response := if st = .sent then some 40 else none, held := if st = .held then some 10000 else none
              backoff := if st = .backoff then some 40 else none } s0

theorem witness_SlotsGoByRepliesAndTimers :
    ((slotAt (slot7 .sent 3 1) 7).state = .sent ∧ (slotAt (slot7 .sent 3 1) 7).response ≠ none ∧
      (slotAt (slot7 .sent 3 1) 7).attempts < 2) ∧
    ((slotAt (slot7 .held 3 0) 7).state = .held ∧ (slotAt (slot7 .held 3 0) 7).held ≠ none) ∧
    ((slotAt (slot7 .backoff 3 0) 7).state = .backoff ∧ (slotAt (slot7 .backoff 3 0) 7).backoff ≠ none ∧
      (slotAt (slot7 .backoff 3 0) 7).dest ≠ (slot7 .backoff 3 0).own) ∧
    ((slotAt (slot7 .backoff 0 0) 7).dest = (slot7 .backoff 0 0).own ∧ (slotAt (slot7 .backoff 0 0) 7).kind = .write) ∧
    Takes (replied (msg .hold) .write (.port 0) s0) (msg .hold) [] (.port 0) ∧
    Takes (replied (msg .busy) .write (.port 0) s0 .queued) (msg .busy) [] (.port 0) ∧
    Takes (replied (msg .busy) .write (.port 0) s0 .backoff) (msg .busy) [] (.port 0) :=
  ⟨by decide, by decide, by decide, by decide, ⟨rfl, rfl, rfl, by decide⟩, ⟨rfl, rfl, rfl, by decide⟩, ⟨rfl, rfl, rfl, by decide⟩⟩

theorem witness_SecondExpiryDeclaresFailure :
    let s := slot7 .sent 3 2
    s.mem.views.length = 8 ∧ (slotAt s 7).dest < 8 ∧ (slotAt s 7).dest ≠ s.own ∧ (slotAt s 7).state = .sent ∧
    (slotAt s 7).response ≠ none ∧ 2 ≤ (slotAt s 7).attempts ∧ (viewAt s (slotAt s 7).dest).state = .active := by decide

theorem witness_HelloIsAnswered :
    let s := inbound hello3 s0
    let full := s.setLink { s.link with replies := { q := List.replicate 8 { msg := msg .hold } } }
    live s = true ∧ s.link.inbound = hello3 :: [] ∧ hello3.kind = .hello ∧ s.mem.views.length = 8 ∧ hello3.source < 8 ∧
    hello3.source ≠ s.own ∧ headPlace s = true ∧ headPlace full = false ∧ full.link.inbound = hello3 :: [] := by decide

theorem witness_JoinReportsMoveTheRecord :
    let s := s0.setLink { s0.link with inbox := [msg .helloRsp] }
    let m := { msg .state with dest := .all, nState := .active }
    s.link.inbox = msg .helloRsp :: [] ∧ s.mem.window = .closed ∧
    (s.setMem { s.mem with window := .running 2000 }).mem.window ≠ .closed ∧
    live (inbound m s0) = true ∧ (inbound m s0).link.inbound = m :: [] ∧ m.kind = .state := by decide

theorem witness_FailsEndTheTarget :
    live (inbound fail1 s0) = true ∧ (inbound fail1 s0).link.inbound = fail1 :: [] ∧ fail1.kind = .fail ∧
    fail1.target ≠ s0.own ∧ s0.mem.views.length = 8 ∧ fail1.target < 8 ∧
    ((viewAt s0 1).state = .active ∧ (viewAt s0 1).inc = fail1.targetInc) ∧ (viewAt (seen 1 .failed s0) 1).state = .failed := by
  decide

/-- R20, R62: a claim in progress at the expulsion completes whole in it, its void word counted. -/
theorem test_expulsion_completes_claim :
    let t := after (exec .fail (inbound failSelf (busy 0 (.burstWrite [some 1, none]) .unitStore s0)))
    t.bank = { words := [(0, goodWord 1)] } ∧ t.counters.lost = 1 := by decide

theorem witness_OwnFailExpels :
    (∃ b, (busy 0 (.burstWrite [some 1, none]) .unitStore (inbound failSelf s0)).bank.busy = some b) ∧
    (inbound failSelf s0).bank.busy = none ∧ live (inbound failSelf s0) = true ∧ failSelf.kind = .fail ∧ failSelf.target = s0.own ∧ failSelf.targetInc = s0.mem.ownInc ∧
    ({ failSelf with targetInc := 0 } : Msg).targetInc ≠ s0.mem.ownInc := by
  refine ⟨⟨_, rfl⟩, ?_⟩
  decide

/-- Station 0 joining, its window running. -/
def joining (mode : JoinMode) (w : List (Nat × PeerState)) : State :=
  s0.setMem { s0.mem with ownState := .joining, joinMode := mode, window := .running 2000, working := w }

theorem witness_JoinDecisionByWorkingPeers :
    let helloQueued := (joining .cold []).setLink { s0.link with notices := { q := [{ msg := msg .hello }] } }
    (∃ q ∈ helloQueued.link.notices.q, q.msg.kind = .hello) ∧ helloQueued.mem.window = .running 2000 ∧
    (∀ q ∈ (joining .cold []).link.notices.q, q.msg.kind ≠ .hello) ∧
    (∃ e ∈ (joining .cold [(3, .active)]).mem.working,
      e.2 ≠ .joining ∧ (viewAt (joining .cold [(3, .active)]) e.1).state.available = true) ∧
    (¬ ∃ e ∈ (joining .warm [(3, .joining)]).mem.working,
      e.2 ≠ .joining ∧ (viewAt (joining .warm [(3, .joining)]) e.1).state.available = true) := by decide

theorem witness_JoiningAnswersNotReady :
    let s := inbound (req .write 24 0) (joining .cold [])
    s.link.inbound = req .write 24 0 :: [] ∧ (req .write 24 0).kind.isRequest = true ∧ live s = true ∧
    s.mem.ownState = .joining ∧ headPlace s = true := by decide

/-- A filter entry for the request `req k`. -/
def filtered (k : Kind) (st : FilterState) (s : State) : State :=
  s.setFilter [{ src := 3, tag := 2, seq := true, kind := k, state := st }]

theorem witness_RepeatsAreAnsweredByTheFilter :
    let m := req .write 24 0
    let c : Cached := ⟨.writeRsp, .ok, none⟩
    let s := inbound m s0
    (s.link.inbound = m :: [] ∧ m.kind.isRequest = true ∧ serving s = true ∧ headPlace s = true ∧
      (viewAt s m.source).state.available = true) ∧
    filterFind s.filter m.source m.tag = none ∧
    filterVerdict (filtered .write (.inProgress false) s).filter m = .discard ∧
    filterVerdict (filtered .write (.inProgress true) s).filter m = .repeatHold ∧
    filterVerdict (filtered .write (.done (some c)) s).filter m = .repeatReply c ∧
    filterVerdict (filtered .read (.done (some c)) s).filter m = .new ∧
    filterVerdict (filtered .write (.done none) s).filter m = .new := by decide

/-- A repeat from a station whose view has gone FAILED. -/
theorem witness_RepeatsAreAnsweredByTheFilter_unavailable :
    let m := req .write 24 0
    let s := seen m.source .failed (filtered .write (.inProgress true) (inbound m s0))
    s.link.inbound = m :: [] ∧ serving s = true ∧ headPlace s = true ∧ filterVerdict s.filter m = .repeatHold ∧
      (viewAt s m.source).state.available = false := by decide

theorem witness_RepeatsAreAnsweredByTheFilter_keyed :
    (filtered .write (.done (some ⟨.writeRsp, .ok, none⟩)) (inbound (req .write 24 0) s0)).Keyed :=
  ⟨by decide, by decide, by decide, by decide⟩

/-- Slot 5 holds a self-addressed request of the local entry of word 0x1234, handed to the own engine. -/
def handed (k : Kind) (f : Fields) (s : State) : State :=
  let s := setSlot 5 { state := .sent, owner := some (.port 0x1234), kind := k, dest := s.own, f := f } s
  if k.toHome then s.setHome { s.home with handoffs := [5] } else s.setHolder { s.holder with handoffs := [5] }

theorem witness_HolderTakesRequests :
    let m (k : Kind) (l : Lanes) : Msg := { req k 25 2 l with f := { (req k 25 2 l).f with count := 1, voids := [false] } }
    let ok (m : Msg) : Bool := serving (inbound m s0) && s0.holder.work.isNone && filterVerdict s0.filter m == .new &&
      !heldBack (inbound m s0) m.f.stripe && headPlace (inbound m s0) && !stale (inbound m s0) m.f.stripe
    let own (k : Kind) (l : Lanes) : State := handed k (m k l).f s0
    ok (m .read 1) = true ∧ ok (m .update 1) = true ∧ ok (m .gather 0) = true ∧ ok (m .store 0) = true ∧ ok (m .store 8) = true ∧
    ok (m .fold 0) = true ∧ (m .store 0).f.lanes = 0 ∧ (m .store 8).f.lanes ≠ 0 ∧
    (∀ k ∈ [Kind.read, .update, .gather, .store, .fold], serving (own k 1) = true ∧ (own k 1).holder.work = none ∧
      stale (own k 1) 25 = false ∧ heldBack (own k 1) 25 = false ∧ (own k 1).holder.handoffs = 5 :: [] ∧
      (slotAt (own k 1) 5).kind = k ∧ (slotAt (own k 1) 5).f.stripe = 25) := by decide

theorem witness_StaleStripesAreNotServed :
    let m := req .read 25 2
    let s := inbound m reb
    let storing := s.setSweep { s.sweep with rebuildPtr := 25, rebuildStep := .storing }
    (serving s = true ∧ s.holder.work = none ∧ s.link.inbound = m :: [] ∧ filterVerdict s.filter m = .new ∧
      heldBack s m.f.stripe = false ∧ headPlace s = true ∧ s.mem.ownState = .rebuilding ∧ s.sweep.rebuildPtr ≤ m.f.stripe ∧
      (viewAt s m.source).state.available = true) ∧
    storing.link.inbound = m :: [] ∧ storing.mem.ownState = .rebuilding ∧ storing.sweep.rebuildStep = .storing ∧
    storing.sweep.rebuildPtr = m.f.stripe := by decide

/-- What a self-addressed request to the home needs before the room is looked at. -/
def handedFit (k : Kind) (s : State) : Bool :=
  serving s && s.home.handoffs == [5] && (slotAt s 5).kind == k && (slotAt s 5).inFlight && !urgentDue s && !recomputeDue s &&
    !releaseDue s

/-- What the three requests to the home need before the room is looked at. -/
def homeFit (m : Msg) (s : State) : Bool :=
  serving s && s.link.inbound == [m] && filterVerdict s.filter m == .new && headPlace s && !urgentDue s && !recomputeDue s &&
    !releaseDue s && (viewAt s m.source).state.available

theorem witness_HomeAnswersAtOnce :
    let m (k : Kind) := req k 24 0
    let full (k : Kind) := inbound (m k) (s0.setHome { s0.home with pool := List.replicate 32 (place .answer) })
    let crowded := inbound (m .write) (s0.setHome { s0.home with table := List.replicate 16 { stripe := 28 } })
    (homeFit (m .write) (full .write) = true ∧ homeFit (m .recover) (full .recover) = true ∧
      homeFit (m .rebuild) (full .rebuild) = true ∧ stale (full .write) 24 = false ∧ 32 ≤ (full .write).home.pool.length) ∧
    (homeFit (m .write) crowded = true ∧ (∀ e ∈ crowded.home.table, e.stripe ≠ 24) ∧ 16 ≤ crowded.home.table.length) ∧
    (homeFit (m .recover) (inbound (m .recover) reb) = true ∧ homeFit (m .rebuild) (inbound (m .rebuild) reb) = true ∧
      reb.mem.ownState = .rebuilding ∧ reb.sweep.rebuildPtr ≤ 24 ∧ (m .recover).f.purpose = .read) ∧
    (∀ k ∈ [Kind.write, .recover],
      let own := handed k (m k).f (s0.setHome { s0.home with pool := List.replicate 32 (place .answer) })
      handedFit k own = true ∧ stale own (slotAt own 5).f.stripe = false ∧ refusedBusy own (slotAt own 5).f.stripe = true) := by
  decide

theorem witness_HomeParksRecoversAndRebuilds :
    let m (k : Kind) := req k 24 0
    homeFit (m .recover) (inbound (m .recover) s0) = true ∧ homeFit (m .rebuild) (inbound (m .rebuild) s0) = true ∧
    stale s0 24 = false ∧ refusedBusy s0 24 = false ∧
    (let own := handed .recover (m .recover).f s0
     handedFit .recover own = true ∧ stale own (slotAt own 5).f.stripe = false ∧
       refusedBusy own (slotAt own 5).f.stripe = false) := by decide

theorem witness_WriteIssuesMemberWrite :
    let m := req .write 24 0
    let s := inbound m s0
    homeFit m s = true ∧ refusedBusy s 24 = false ∧ entryOccupied s 24 = false ∧ holderOf s.n 24 0 ≠ s.own ∧
    (viewAt s (holderOf s.n 24 0)).state.available = true ∧ s.tu.asks = [] ∧ s.tu.slots.length = 8 ∧
    (slotAt s 0).state = .free ∧ (∀ u, u < 0 → (slotAt s u).state ≠ .free) ∧
    (let own := handed .write m.f s0
     handedFit .write own = true ∧ refusedBusy own 24 = false ∧ entryOccupied own 24 = false ∧
       (slotAt own 5).f.stripe = 24 ∧ (viewAt own (holderOf own.n 24 (slotAt own 5).f.position)).state.available = true ∧
       own.tu.asks = [] ∧ own.tu.slots.length = 8 ∧ (slotAt own 0).state = .free) := by decide

theorem witness_WriteIsParkedOrDegraded :
    let m := req .write 24 0
    let occupied := inbound m (homed [] s0 (some (operation .recover .gather)))
    let gone := inbound m (seen 1 .failed s0)
    let staleGone := inbound m (seen 1 .failed reb)
    (homeFit m occupied = true ∧ refusedBusy occupied 24 = false ∧ entryOccupied occupied 24 = true) ∧
    (homeFit m gone = true ∧ refusedBusy gone 24 = false ∧ entryOccupied gone 24 = false ∧
      reachable gone (holderOf gone.n 24 0) = false ∧ stale gone 24 = false) ∧
    homeFit m staleGone = true ∧ refusedBusy staleGone 24 = false ∧ entryOccupied staleGone 24 = false ∧
      reachable staleGone (holderOf staleGone.n 24 0) = false ∧ stale staleGone 24 = true := by decide

theorem witness_WriteIsParkedOrDegraded_own :
    let f := (req .write 24 0).f
    let own (s : State) := handed .write f s
    let asks := asking .repair .recover 3 (own s0)
    let lost := entries [entry true .first] (own (seen 1 .failed reb))
    (handedFit .write (own (homed [] s0 (some (operation .recover .gather)))) = true ∧
      entryOccupied (own (homed [] s0 (some (operation .recover .gather)))) 24 = true) ∧
    (handedFit .write (own (seen 1 .failed s0)) = true ∧ reachable (own (seen 1 .failed s0)) (holderOf 4 24 0) = false ∧
      stale (own (seen 1 .failed s0)) 24 = false ∧ entryOccupied (own (seen 1 .failed s0)) 24 = false) ∧
    (handedFit .write asks = true ∧ slotAtOnce asks = false ∧ reachable asks (holderOf 4 24 0) = true) ∧
    handedFit .write lost = true ∧ refusedBusy lost 24 = false ∧ entryOccupied lost 24 = false ∧
    reachable lost (holderOf 4 24 0) = false ∧ stale lost 24 = true ∧ (slotAt lost 5).owner = some (.port 0x1234) ∧
    startedEntry lost 0x1234 = some (entry true .first) ∧ 5 < lost.tu.slots.length := by decide

theorem witness_OldestParkedWriteIsReleased :
    let s := homed [place .waitTail] s0
    s.home.releaseCandidate = some (place .waitTail) ∧ s.tu.asks = [] ∧ s.tu.slots.length = 8 ∧ (slotAt s 0).state = .free ∧
    holderOf s.n 24 0 ≠ s.own ∧ (viewAt s (holderOf s.n 24 0)).state.available = true ∧ urgentDue s = false ∧
    recomputeDue s = false := by decide

/-- R147, R162: the urgent audit, or the own RECOMPUTE, has the room it needs. -/
theorem witness_OldestParkedWriteIsReleased_waits :
    urgentDue ((homed [place .waitTail] s0).setSweep { auditPtr := 24, auditPhase := .waiting }) = true ∧
    recomputeDue ((homed [place .waitTail] s0).setSweep { rebuildPtr := 24, rebuildStep := .waitingRoom }) = true := by decide

/-- R147: an entry ready and an accumulator free, the urgent audit's admission comes before the start. -/
theorem test_start_waits_for_urgent_audit :
    let s := (homed [{ place .waitTail with kind := .recover }] s0).setSweep { auditPtr := 24, auditPhase := .waiting }
    let s := s.setHome { s.home with accQueue := [24] }
    (after (exec .exclusiveOpStart s)).home.pool.length = 1 ∧
    ((after (exec .urgentAuditAdmission s)).home.firstWait 24).map (·.kind) = some .audit := by decide

theorem witness_ReadyEntryStarts :
    let waits (k : WorkKind) := (homed [{ place .waitTail with kind := k }] s0).setHome
      { (homed [{ place .waitTail with kind := k }] s0).home with accQueue := [24], accs := [{ used := true }, {}] }
    let lists (l : RecList) := (homed [] s0 none (some l)).setHome { (homed [] s0 none (some l)).home with accQueue := [24] }
    (∀ k ∈ [WorkKind.recover, .mergeWrite, .degradedWrite, .rebuild, .audit, .recomputeWhole],
      (waits k).home.accQueue = 24 :: [] ∧ (waits k).home.entry 24 = some { stripe := 24 } ∧ (waits k).home.accs.length = 2 ∧
      (accAt (waits k) 1).used = false ∧ (∀ j, j < 1 → (accAt (waits k) j).used = true) ∧
      (waits k).home.firstWait 24 = some { place .waitTail with kind := k } ∧ (waits k).tu.asks = [] ∧
      urgentDue (waits k) = false ∧ recomputeDue (waits k) = false) ∧
    (∀ l ∈ [RecList.whole, .offsets [13, 3, 15]],
      (lists l).home.accQueue = 24 :: [] ∧ (lists l).home.entry 24 = some { stripe := 24, recompute := some l } ∧
      (accAt (lists l) 0).used = false ∧ urgentDue (lists l) = false ∧ recomputeDue (lists l) = false) ∧
    3 ∈ [13, 3, 15] ∧ 15 ∈ [13, 3, 15] ∧ ∀ x ∈ [13, 3, 15], 3 ≤ x ∧ x ≤ 15 := by decide

/-- A conversion made after an urgent audit's admission comes before it, and the audit before the tail (R84, R157). -/
theorem witness_ReadyEntryStarts_order :
    let audit : Place := { place .waitUrgent with kind := .audit, who := .internalAudit }
    let conversion : Place := { place .waitHead with kind := .mergeWrite }
    let tail : Place := place .waitTail
    (homed [tail, audit, conversion] s0).home.pool = [tail, audit] ++ conversion :: [] ∧
    (∀ x ∈ [tail, audit], x.stripe = 24 → x.use ≠ conversion.use) ∧
    ((homed [tail, audit] s0).home.pool = [tail] ++ audit :: [] ∧
      (∀ x ∈ (homed [tail, audit] s0).home.pool, x.stripe = 24 → x.use ≠ .waitHead) ∧
      (∀ x ∈ [tail], x.stripe = 24 → x.use ≠ audit.use)) ∧
    ∀ x ∈ (homed [tail] s0).home.pool, x.stripe = 24 → x.use ≠ .waitHead ∧ x.use ≠ .waitUrgent := by decide

/-- A reply of kind `k` for the local entry of word 0x1234. -/
def forEntry (k of : Kind) (st : Status) (ws : List Word) (e : LocalEntry) : State :=
  entries [e] (replied { msg k with status := st, f := { payload := ws } } of (.port 0x1234) s0)

theorem witness_LocalEntriesGoOn :
    let reply (k : Kind) (st : Status) (ws : List Word) : Msg := { msg k with status := st, f := { payload := ws } }
    Takes (forEntry .readRsp .read .ok [7] (entry false .first)) (reply .readRsp .ok [7]) [] (.port 0x1234) ∧
    Takes (forEntry .recoverRsp .recover .ok [7] (entry false .second)) (reply .recoverRsp .ok [7]) [] (.port 0x1234) ∧
    Takes (forEntry .recoverRsp .recover .lost [] (entry false .second)) (reply .recoverRsp .lost []) [] (.port 0x1234) ∧
    Takes (forEntry .readRsp .read .bad [] (entry false .first)) (reply .readRsp .bad []) [] (.port 0x1234) ∧
    reachable s0 (homeOf s0.n 24) = true ∧
    startedEntry (forEntry .readRsp .read .ok [7] (entry false .first)) 0x1234 = some (entry false .first) ∧
    Takes (forEntry .writeRsp .write .ok [] (entry true .first)) (reply .writeRsp .ok []) [] (.port 0x1234) ∧
    Takes (forEntry .storeRsp .store .mergeBad [] (entry true .second)) (reply .storeRsp .mergeBad []) [] (.port 0x1234) ∧
    Takes (forEntry .notReady .write .ok [] (entry true .first)) (reply .notReady .ok []) [] (.port 0x1234) ∧
    reachable s0 (holderOf s0.n 24 0) = true ∧
    startedEntry (forEntry .writeRsp .write .ok [] (entry true .first)) 0x1234 = some (entry true .first) :=
  ⟨⟨rfl, rfl, rfl, by decide⟩, ⟨rfl, rfl, rfl, by decide⟩, ⟨rfl, rfl, rfl, by decide⟩, ⟨rfl, rfl, rfl, by decide⟩, rfl, rfl,
    ⟨rfl, rfl, rfl, by decide⟩, ⟨rfl, rfl, rfl, by decide⟩, ⟨rfl, rfl, rfl, by decide⟩, rfl, rfl⟩

theorem witness_DeltasReachParity :
    let m (k : Kind) (st : Status) (ws : List Word) : Msg := { msg k with status := st, f := { payload := ws } }
    let s (k of : Kind) (st : Status) (ws : List Word) :=
      homed [place (.member 2)] (replied (m k st ws) of (.member 24) s0)
    (Takes (s .delta .update .ok [7]) (m .delta .ok [7]) [] (.member (place (.member 2)).stripe) ∧
      (slotAt (s .delta .update .ok [7]) 2).kind = .update ∧
      (s .delta .update .ok [7]).home.pool.find? (isMemberIn 24 2) = some (place (.member 2))) ∧
    (Takes (s .delta .update .oldBad []) (m .delta .oldBad []) [] (.member 24) ∧
      (s .delta .update .oldBad []).home.hasEntry 24 = true) ∧
    Takes (s .delta .update .mergeBad []) (m .delta .mergeBad []) [] (.member 24) ∧
    Takes (s .notReady .update .ok []) (m .notReady .ok []) [] (.member 24) ∧
    Takes (s .storeRsp .store .mergeBad []) (m .storeRsp .mergeBad []) [] (.member 24) ∧
    Takes (s .notReady .store .ok []) (m .notReady .ok []) [] (.member 24) :=
  ⟨⟨⟨rfl, rfl, rfl, by decide⟩, rfl, by decide⟩, ⟨⟨rfl, rfl, rfl, by decide⟩, by decide⟩, ⟨rfl, rfl, rfl, by decide⟩,
    ⟨rfl, rfl, rfl, by decide⟩, ⟨rfl, rfl, rfl, by decide⟩, ⟨rfl, rfl, rfl, by decide⟩⟩

/-- The requesters told: a peer the view admits with a place free, an own slot in flight, and nobody. -/
theorem witness_DeltasReachParity_requesters : CanReply s0 3 ∧
    (slotAt (handed .write {} s0) 5).inFlight = true ∧ (slotAt (handed .write {} s0) 5).owner = some (.port 0x1234) ∧
    startedEntry (entries [entry true .first] (handed .write {} s0)) 0x1234 = some (entry true .first) ∧
    ({ place .applying with who := .nobody } : Place).who = .nobody ∧ (place .applying).who ≠ .nobody :=
  ⟨⟨rfl, rfl, by decide⟩, rfl, rfl, by decide, rfl, by decide⟩

theorem witness_DeltasReachParity_applied :
    let s := busy 397 (.merge (.delta 1)) (.delta 24 13) (homed [place .applying] s0)
    let good := s.setBank { s.bank with words := [(397, goodWord 5)] }
    (∃ b, s.bank.busy = some b ∧ b.claim.work = .delta 24 13 ∧ b.claim.op = .merge (.delta 1) ∧
      claimInBank s.straps b.claim = true) ∧
    s.home.pool.find? (isApplying 24) = some (place .applying) ∧ s.counters.lost ≤ 65535 ∧ s.home.hasEntry 24 = true ∧
    isGood (bankGet s.bank.words 397) = false ∧ isGood (bankGet good.bank.words 397) = true :=
  ⟨⟨_, rfl, rfl, rfl, by decide⟩, by decide⟩

theorem witness_OperationRepliesAreRecorded :
    let m (k : Kind) : Msg := { msg k with f := { payload := [7], voids := [false], count := 1 } }
    let f : Fields := { stripe := 24, position := 2, offset := 13, count := 1 }
    let op (k : OpKind) (x : OpStep) : Op := { operation k x with outstanding := 2 }
    let s (k of : Kind) (o : Op) := homed [] (replied (m k) of (.op 24) s0 .sent f) (some o)
    (Takes (s .gatherRsp .gather (op .recover .gather)) (m .gatherRsp) [] (.op 24) ∧
      opAt (s .gatherRsp .gather (op .recover .gather)) 24 = some (op .recover .gather) ∧
      (slotAt (s .gatherRsp .gather (op .recover .gather)) 2).f.position < (op .recover .gather).results.length) ∧
    Takes (s .foldRsp .fold (op .audit .fold)) (m .foldRsp) [] (.op 24) ∧
    Takes (s .storeRsp .store (op .recover .store)) (m .storeRsp) [] (.op 24) ∧
    Takes (replied (m .rebuildRsp) .rebuild .sweep reb) (m .rebuildRsp) [] .sweep ∧
    Takes (replied (m .notReady) .rebuild .sweep reb) (m .notReady) [] .sweep :=
  ⟨⟨⟨rfl, rfl, rfl, by decide⟩, rfl, by decide⟩, ⟨rfl, rfl, rfl, by decide⟩, ⟨rfl, rfl, rfl, by decide⟩,
    ⟨rfl, rfl, rfl, by decide⟩, ⟨rfl, rfl, rfl, by decide⟩⟩

/-- The last result outstanding, and the member that is not ready. -/
theorem witness_OperationRepliesAreRecorded_last :
    let f : Fields := { stripe := 24, position := 2, offset := 13, count := 1 }
    let op (k : OpKind) (x : OpStep) : Op := { operation k x with outstanding := 1 }
    let s (k of : Kind) (o : Op) := homed [] (replied (msg k) of (.op 24) s0 .sent f) (some o)
    (Takes (s .gatherRsp .gather (op .recover .gather)) (msg .gatherRsp) [] (.op 24) ∧
      opAt (s .gatherRsp .gather (op .recover .gather)) 24 = some (op .recover .gather) ∧
      (op .recover .gather).acc < (s .gatherRsp .gather (op .recover .gather)).home.accs.length) ∧
    Takes (s .foldRsp .fold (op .audit .fold)) (msg .foldRsp) [] (.op 24) ∧
    Takes (s .storeRsp .store (op .audit .offStore)) (msg .storeRsp) [] (.op 24) ∧
    Takes (s .notReady .gather (op .audit .offGather)) (msg .notReady) [] (.op 24) ∧
    Takes (s .notReady .fold (op .audit .fold)) (msg .notReady) [] (.op 24) ∧
    Takes (s .notReady .store (op .recover .store)) (msg .notReady) [] (.op 24) ∧ OpStep.fold.accumulates = false :=
  ⟨⟨⟨rfl, rfl, rfl, by decide⟩, rfl, by decide⟩, ⟨rfl, rfl, rfl, by decide⟩, ⟨rfl, rfl, rfl, by decide⟩,
    ⟨rfl, rfl, rfl, by decide⟩, ⟨rfl, rfl, rfl, by decide⟩, ⟨rfl, rfl, rfl, by decide⟩, rfl⟩

theorem witness_OperationsDecideByTheirFlags :
    let fits (op : Op) (flag : Bool) : Bool :=
      (opAt (gathering op flag) 24 == some op) && op.complete && op.step == .gather && (gathering op flag).tu.asks.isEmpty &&
        (accAt (gathering op flag) op.acc).flag op.offset == flag
    fits (operation .recover .gather) false = true ∧ fits (operation .recover .gather) true = true ∧
    fits (operation .mergeWrite .gather) false = true ∧ fits (operation .mergeWrite .gather) true = true ∧
    fits (operation .degradedWrite .gather) false = true ∧ fits (operation .degradedWrite .gather) true = true ∧
    fits { operation .recompute .gather with list := .offsets [0, 15] } false = true ∧
    fits { operation .recompute .gather with list := .whole } false = true ∧
    fits (operation .rebuild .gather) false = true ∧ fits (operation .rebuild .gather) true = true ∧
    (∀ x, x < s0.w → (accAt (gathering (operation .rebuild .gather) false) 0).flag x = false) ∧
    (13 < s0.w ∧ (accAt (gathering (operation .rebuild .gather) true) 0).flag 13 = true) ∧
    ([.unavailable] : List MemberResult)[0]? = some .unavailable := by decide

theorem witness_AuditsDecideByFolds :
    let op (x : OpStep) (rs : List MemberResult) (p : BankWord) : Op :=
      { operation .audit x with results := rs, parity := [p], repairSet := [13], who := .internalAudit }
    let fits (o : Op) : Bool := (opAt (gathering o false) 24 == some o) && o.complete && decide (o.acc < 2) && o.kind == .audit
    let folds (w : Word) : List MemberResult := [.folded w [] false, .folded 0 [] false, .folded 0 [] false]
    let bad (o : Op) : List Nat := (List.range 3).filter fun k => (o.result k).voidAt 0
    let none1 := op .offGather (List.replicate 3 (.gathered [false]))
    let one := op .offGather [.gathered [true], .gathered [false], .gathered [false]]
    let two := op .offGather [.gathered [true], .gathered [true], .gathered [false]]
    (fits (op .fold [.unavailable, .awaited, .awaited] voidWord) = true ∧
      ∃ r ∈ (op .fold [.unavailable, .awaited, .awaited] voidWord).results, r = .unavailable) ∧
    (fits (op .fold (folds 5) (goodWord 5)) = true ∧
      (∀ r ∈ folds 5, r ≠ .unavailable ∧ r.foldBad = false) ∧ foldUnit [goodWord 5] = xorWords ((folds 5).map (·.foldValue))) ∧
    foldUnit [goodWord 4] ≠ xorWords ((folds 5).map (·.foldValue)) ∧
    (bad (one (goodWord 1)) = [0] ∧ isGood ((one (goodWord 1)).parityWord 0) = true) ∧
    (bad (none1 voidWord) = [] ∧ isGood ((none1 voidWord).parityWord 0) = false) ∧
    2 ≤ (bad (two (goodWord 1))).length ∧ (bad (one voidWord)).length = 1 ∧
    fits (op .offStore [] voidWord) = true ∧ fits (op .syncWrite [] voidWord) = true ∧ fits (op .stopping [] voidWord) = true := by
  decide

/-- A member with a bad word listed, one with MANY set, its gathered unit, a clean offset, and one or two offsets left. -/
theorem witness_AuditsDecideByFolds_repair :
    let op (x : OpStep) (rs : List MemberResult) (l : List Nat) : Op :=
      { operation .audit x with results := rs, parity := [goodWord 1], repairSet := l, who := .internalAudit }
    let fits (o : Op) : Bool := (opAt (gathering o false) 24 == some o) && o.complete && o.kind == .audit &&
      (gathering o false).tu.asks.isEmpty
    let many (o : Op) : List Nat := (List.range 3).filter fun k => (o.result k).foldMany
    let listed := op .fold [.folded 0 [13] false, .folded 0 [] false, .folded 0 [] false] []
    let crowded := op .fold [.folded 0 [1, 2, 3, 4] true, .folded 0 [] false, .folded 0 [] false] []
    let unit := op .many [.gathered [false, true], .folded 0 [13] false, .folded 0 [] false] []
    let clean := op .offGather (List.replicate 3 (.gathered [false])) [13, 14]
    (fits listed = true ∧ many listed = [] ∧ ∃ r ∈ listed.results, r.foldBad = true) ∧
    (fits crowded = true ∧ many crowded = [0] ∧ ∀ r ∈ crowded.results, r ≠ .unavailable) ∧
    (fits unit = true ∧ repairSetOf 16 unit = [1, 13]) ∧
    (fits clean = true ∧ ((List.range 3).filter fun k => (clean.result k).voidAt 0) = [] ∧ isGood (clean.parityWord 0) = true) ∧
    fits (op .offStore [] [13, 14]) = true ∧ fits (op .offStore [] [13]) = true ∧ fits (op .syncGather [] []) = true := by
  decide

theorem witness_OperationsEndWithTheirReply :
    let s := gathering (operation .recover .store) false
    let own := gathering { operation .recompute .store with who := .internalRebuild } false
    let rebuild := gathering (operation .rebuild .store) false
    let nobody := gathering { operation .mergeWrite .store with who := .nobody } false
    (opAt s 24 = some (operation .recover .store) ∧ (operation .recover .store).complete = true ∧
      (viewAt (seen 3 .failed s) 3).state.available = false) ∧
    opAt own 24 = some { operation .recompute .store with who := .internalRebuild } ∧
    opAt rebuild 24 = some (operation .rebuild .store) ∧
    opAt nobody 24 = some { operation .mergeWrite .store with who := .nobody } := by decide

theorem witness_OperationsEndWithTheirReply_admitted : CanReply (gathering (operation .recover .store) false) 3 :=
  ⟨rfl, rfl, by decide⟩

/-- An own slot as requester, its local entry a read in its second phase or a write in its first. -/
theorem witness_OperationsEndWithTheirReply_own :
    let s (k : OpKind) (r : Kind) (e : LocalEntry) :=
      entries [e] (handed r {} (gathering { operation k .store with who := .own 5 } false))
    let fits (k : OpKind) (r : Kind) (e : LocalEntry) : Bool :=
      (opAt (s k r e) 24 == some { operation k .store with who := .own 5 }) && (slotAt (s k r e) 5).inFlight &&
        (slotAt (s k r e) 5).owner == some (.port 0x1234) && (startedEntry (s k r e) 0x1234 == some e)
    fits .recover .recover (entry false .second) = true ∧ fits .mergeWrite .write (entry true .first) = true ∧
    fits .degradedWrite .write (entry true .first) = true := by decide

/-- Two answer records, one write's word found good and the other's bad. -/
theorem witness_OperationsEndWithTheirReply_answers :
    let op : Op := { operation .recompute .store with
      who := .internalList, list := .offsets [13], results := [.gathered [false], .gathered [true], .unavailable] }
    let records := [place .answer, { place .answer with position := 1 }]
    let s := homed records s0 (some op)
    opAt s 24 = some op ∧ op.complete = true ∧ s.link.waiters = [] ∧
    s.home.pool.filter (fun p => p.stripe == 24 && p.use == .answer) = records ∧ records.length ≤ freePlaces s ∧
    (place .answer).who = .peer 3 2 true ∧ (viewAt s 3).state.available = true ∧
    op.results[0]? = some (.gathered [false]) ∧ [false][13 - (op.list.range s.w).1]? = some false := by decide

theorem witness_RepairHeadsLeave :
    let s := s0.setHolder { s0.holder with repair := [(25, 13), (26, 13)], repairOut := true }
    s.holder.repair = (25, 13) :: [(26, 13)] ∧ (viewAt s (homeOf s.n 26)).state.available = true ∧
    (viewAt (seen 2 .failed s) (homeOf s.n 26)).state.available = false := by decide

theorem witness_RepairHeadsLeave_counters : s0.CountersFit := ⟨by decide, by decide, by decide, by decide, by decide, by decide⟩

theorem witness_ClaimsAreGrantedAndCompleteWhole :
    let c : Claim := ⟨0, .wordRead, .holder⟩
    let due (who : Claimant) := s0.setBank (s0.bank.setDue who [c])
    ((due .holder).bank.busy = none ∧ (due .holder).bank.due .holder = c :: [] ∧ .holder = s0.bank.pointer) ∧
    ((due .home).bank.due .home = c :: [] ∧ .home = s0.bank.pointer.after ∧ (due .home).bank.due s0.bank.pointer = []) ∧
    ((due .sweep).bank.due .sweep = c :: [] ∧ .sweep = s0.bank.pointer.after.after ∧ (due .sweep).bank.due .holder = [] ∧
      (due .sweep).bank.due .home = []) ∧
    claimInBank s0.straps ⟨16383, .wordWrite (some 5), .parityWrite 1023⟩ = true ∧
    claimInBank s0.straps ⟨16368, .burstWrite (List.replicate 16 none), .unitStore⟩ = true ∧
    mergeDecision (.delta 1) (goodWord 0) = some (goodWord 1) ∧ mergeDecision (.delta 1) voidWord = none := by decide

/-- The holder at work for a peer, its word good in the lanes read and bad in another, the repair queue as given. -/
def readingFor (who : Requester) (k : Kind) (lanes : Lanes) (l : List (Nat × Nat)) (out : Bool) : State :=
  let s := busy 413 (if k = .read then .wordRead else .merge (.direct lanes 7)) .holder (handed k {} s0)
  (s.setBank { s.bank with words := [(413, ⟨0x000001FF, 0b0101⟩)] }).setHolder
    { work := some { who := who, kind := k, f := { stripe := 25, position := 2, offset := 13, lanes := lanes, payload := [7] } }
      repair := l, repairOut := out }

theorem witness_ClaimsAreGrantedAndCompleteWhole_holder :
    let s (l : List (Nat × Nat)) (out : Bool) := readingFor (.peer 3 2 true) .read 0b0011#4 l out
    let word := bankGet (s [] false).bank.words 413
    (∃ b, (s [] false).bank.busy = some b ∧ claimInBank (s [] false).straps b.claim = true ∧ b.claim.work = .holder ∧
      (claimReads (s [] false).bank.words b.claim).headD voidWord = word) ∧
    goodIn 0b0011#4 word = true ∧ isGood word = false ∧ goodIn 0xF#4 word = false ∧
    (viewAt (s [] false) 3).state.available = true ∧ (viewAt (seen 3 .failed (s [] false)) 3).state.available = false ∧
    ((25, 13) ∈ [(25, 13)] ∧ (25, 13) ∉ List.replicate 8 (26, 0) ∧ 8 ≤ (List.replicate 8 (26, 0)).length) ∧
    ((s [(26, 0)] true).holder.repairOut = true ∧ (s [] false).holder.repairOut = false) ∧
    (viewAt (s [] false) (homeOf (s [] false).n 25)).state.available = true :=
  ⟨⟨_, rfl, rfl, rfl, by decide⟩, by decide⟩

/-- The holder at work for an own slot: a READ, good or bad in its lanes, and a direct write. -/
theorem witness_ClaimsAreGrantedAndCompleteWhole_own :
    let s (k : Kind) (l : Lanes) (e : LocalEntry) := entries [e] (readingFor (.own 5) k l [] false)
    let fits (k : Kind) (l : Lanes) (e : LocalEntry) : Bool :=
      (slotAt (s k l e) 5).inFlight && (slotAt (s k l e) 5).owner == some (.port 0x1234) &&
        (startedEntry (s k l e) 0x1234 == some e) && decide (5 < (s k l e).tu.slots.length) &&
        reachable (s k l e) (homeOf (s k l e).n e.stripe)
    fits .read 0b0011#4 (entry false .first) = true ∧ fits .read 0xF#4 (entry false .first) = true ∧
    fits .store 0b0011#4 (entry true .second) = true := by decide

/-- A parity read and a parity write of an operation. -/
theorem witness_ClaimsAreGrantedAndCompleteWhole_parity :
    let op : Op := { operation .recover .gather with claims := 1 }
    let s (work : ClaimFor) (o : BankOp) := busy 397 o work (gathering op false)
    (∃ b, (s (.parityRead 24 13) .wordRead).bank.busy = some b ∧ b.claim.work = .parityRead 24 13 ∧
      claimInBank s0.straps b.claim = true) ∧
    (∃ b, (s (.parityWrite 24) (.wordWrite none)).bank.busy = some b ∧ b.claim.work = .parityWrite 24 ∧
      claimInBank s0.straps b.claim = true) ∧
    opAt (s (.parityRead 24 13) .wordRead) 24 = some op ∧ op.acc < (s (.parityRead 24 13) .wordRead).home.accs.length :=
  ⟨⟨_, rfl, rfl, by decide⟩, ⟨_, rfl, rfl, by decide⟩, by decide⟩

theorem witness_PointersAdvanceByStripe :
    let ws : List (Option Word) := List.replicate 16 (some 0)
    let fill (p : Nat) := busy (p * 16) (.burstWrite ws) .fill (s0.setMem { s0.mem with ownState := .filling, fillProgress := p })
    let build (p : Nat) := busy (p * 16) (.burstWrite ws) .unitStore (reb.setSweep { rebuildPtr := p, rebuildStep := .storing })
    claimInBank s0.straps ⟨16368, .burstWrite ws, .fill⟩ = true ∧
    (fill 1022).mem.fillProgress + 1 < (fill 1022).stripes ∧ (fill 1023).stripes ≤ (fill 1023).mem.fillProgress + 1 ∧
    (build 1022).sweep.rebuildPtr + 1 < (build 1022).stripes ∧ (build 1023).stripes ≤ (build 1023).sweep.rebuildPtr + 1 ∧
    homeOf s0.n (1022 + 1) ≠ s0.own ∧ homeOf s0.n (1019 + 1) = s0.own := by decide

theorem witness_AuditsAreAdmittedByRoom :
    let due := s0.setSweep { s0.sweep with auditTimer := some 2000, auditPtr := 24 }
    let full (n : Nat) := (due.setHome { due.home with pool := List.replicate 32 (place .answer) }).setSweep
      { due.sweep with deferral := n }
    (due.sweep.auditTimer ≠ none ∧ due.sweep.auditPhase = .idle) ∧
    (¬ ∀ j, j < (seen 1 .failed due).n → j = (seen 1 .failed due).own ∨ (viewAt (seen 1 .failed due) j).state = .active) ∧
    (∀ j, j < due.n → j = due.own ∨ (viewAt due j).state = .active) ∧ roomFor due 24 = true ∧
    roomFor (full 6) 24 = false ∧ (full 6).sweep.deferral < 7 ∧ (full 7).sweep.deferral = 7 ∧
    ((due.setSweep { due.sweep with auditPhase := .waiting }).sweep.auditPhase = .waiting) ∧
    ((reb.setSweep { reb.sweep with rebuildStep := .waitingRoom }).sweep.rebuildStep = .waitingRoom ∧ roomFor reb 24 = true) ∧
    (reb.setSweep { reb.sweep with rebuildStep := .paused, pause := some 1000 }).sweep.pause ≠ none := by decide

end Sys2Proof.Tests
end

section
/-! PROOFS. The layout map and the address classes (R5, R6, R8): stations and roles of a stripe answer each other modulo
N, and the shared space ends below the status window. -/

namespace Sys2Proof.Machine

/-! ### The layout map (R5, R6) -/

theorem holderOf_lt {n : Nat} (hn : 0 < n) (st k : Nat) : holderOf n st k < n := Nat.mod_lt _ hn

theorem roleOf_congr {n st st' : Nat} (h : (st + 1) % n = (st' + 1) % n) (j : Nat) :
    roleOf n j st = roleOf n j st' := by
  unfold roleOf
  rw [h]

/-- The model counts up to the next multiple of N to stay in the naturals; over the integers it is the rule's own
difference. -/
theorem roleOf_cast {n : Nat} (hn : 0 < n) (j st : Nat) :
    ((roleOf n j st : Nat) : Int) = ((j : Int) - st - 1) % n := by
  have hle : (st + 1) % n ≤ n := Nat.le_of_lt (Nat.mod_lt _ hn)
  calc ((roleOf n j st : Nat) : Int)
      = ((j : Int) + (n - ((st : Int) + 1) % n)) % n := by
        simp only [roleOf, Int.natCast_emod, Int.natCast_add, Int.ofNat_sub hle, Int.cast_ofNat_Int]
    _ = ((j : Int) - ((st : Int) + 1) % n + n) % n := by congr 1; omega
    _ = ((j : Int) - ((st : Int) + 1)) % n := by rw [Int.add_emod_right, Int.sub_emod_emod]
    _ = ((j : Int) - st - 1) % n := by rw [Int.sub_sub]

theorem holderOf_cast (n st k : Nat) : ((holderOf n st k : Nat) : Int) = ((st : Int) + 1 + k) % n := by
  have hnat : holderOf n st k = (st + 1 + k) % n := by
    unfold holderOf homeOf
    rw [Nat.add_assoc, Nat.mod_add_mod, ← Nat.add_assoc]
  simp only [hnat, Int.natCast_emod, Int.natCast_add, Int.cast_ofNat_Int]

/-- The home stands where a position N − 1 would: one rule places the home and the holders. -/
theorem holderOf_last {n : Nat} (hn : 0 < n) (st : Nat) : holderOf n st (n - 1) = homeOf n st := by
  have hround : homeOf n st + 1 + (n - 1) = homeOf n st + n := by omega
  unfold holderOf
  rw [hround, Nat.add_mod_right]
  exact Nat.mod_mod _ _

theorem roleOf_holderOf {n k : Nat} (hk : k < n) (st : Nat) : roleOf n (holderOf n st k) st = k := by
  have hint : ((roleOf n (holderOf n st k) st : Nat) : Int) = k := by
    calc ((roleOf n (holderOf n st k) st : Nat) : Int)
        = (((st : Int) + 1 + k) % n - (st + 1)) % n := by
          rw [roleOf_cast (by omega), holderOf_cast, Int.sub_sub]
      _ = (k : Int) % n := by rw [Int.emod_sub_emod]; congr 1; omega
      _ = k := Int.emod_eq_of_lt (by omega) (by omega)
  exact Int.ofNat_inj.mp hint

theorem holderOf_roleOf {n j : Nat} (hj : j < n) (st : Nat) : holderOf n st (roleOf n j st) = j := by
  have hint : ((holderOf n st (roleOf n j st) : Nat) : Int) = j := by
    calc ((holderOf n st (roleOf n j st) : Nat) : Int)
        = ((st : Int) + 1 + (j - (st + 1)) % n) % n := by
          rw [holderOf_cast, roleOf_cast (by omega), Int.sub_sub]
      _ = (j : Int) % n := by rw [Int.add_emod_emod]; congr 1; omega
      _ = j := Int.emod_eq_of_lt (by omega) (by omega)
  exact Int.ofNat_inj.mp hint

theorem roleOf_eq_iff {n j k : Nat} (hj : j < n) (hk : k < n) (st : Nat) :
    roleOf n j st = k ↔ j = holderOf n st k := by
  constructor
  · rintro rfl
    exact (holderOf_roleOf hj st).symm
  · rintro rfl
    exact roleOf_holderOf hk st

theorem roleOf_eq_home_iff {n j : Nat} (hj : j < n) (st : Nat) : roleOf n j st = n - 1 ↔ j = homeOf n st := by
  rw [roleOf_eq_iff hj (by omega), holderOf_last (by omega)]

/-- No station has two roles in a stripe, so the holder of a position is not the home. -/
theorem holderOf_ne_homeOf {n k : Nat} (hk : k < n - 1) (st : Nat) : holderOf n st k ≠ homeOf n st := by
  intro hsame
  have hhome : roleOf n (holderOf n st k) st = n - 1 := (roleOf_eq_home_iff (holderOf_lt (by omega) st k) st).mpr hsame
  have hpos : roleOf n (holderOf n st k) st = k := roleOf_holderOf (by omega) st
  omega

theorem homeOf_succ (n st : Nat) : homeOf n (st + 1) = (homeOf n st + 1) % n := (Nat.mod_add_mod st n 1).symm

theorem roleOf_add_period (n j st : Nat) : roleOf n j (st + n) = roleOf n j st :=
  roleOf_congr (by rw [Nat.add_right_comm, Nat.add_mod_right]) j

/-- Settles O13. Stations and roles of a stripe are inverse to each other modulo N, with the home as the last role. -/
theorem rolesFollowLayout : Obligations.RolesFollowLayout := by
  intro n j st hj
  refine ⟨roleOf_cast (by omega) j st, roleOf_eq_home_iff hj st, fun k hk => ⟨?_, ?_⟩, homeOf_succ n st,
    roleOf_add_period n j st⟩
  · exact roleOf_eq_iff hj (by omega) st
  · exact holderOf_ne_homeOf hk st

/-! ### Address classes (R8) -/

theorem groupSize_le (p : StrapPins) : groupSize p ≤ 8 := by
  have hgs : ∀ g : BitVec 3, (gsDecode g).getD 0 ≤ 8 := by decide
  exact hgs p.gs

theorem dataUnits_le (p : StrapPins) : dataUnits p ≤ 7 := Nat.sub_le_sub_right (groupSize_le p) 1

theorem bankBytes_le (p : StrapPins) : bankBytes p ≤ 0x400000 := by
  have hbs : ∀ b : BitVec 2, bsDecode b ≤ 0x400000 := by decide
  exact hbs p.bs

/-- At most seven data units of 4 MiB each: 28 MiB. -/
theorem sharedBytes_le (p : StrapPins) : dataUnits p * bankBytes p ≤ 0x1C00000 :=
  Nat.mul_le_mul (dataUnits_le p) (bankBytes_le p)

theorem classOf_of_window {a : Nat} (ha : 0x1FFFF00 ≤ a) (p : StrapPins) : classOf p a = .window := if_pos ha

theorem classOf_of_invalid {p : StrapPins} {a : Nat} (ha : a < 0x1FFFF00) (hp : strapsValid p = false) :
    classOf p a = .inert := by
  simp [classOf, Config.windowBase, Nat.not_le.mpr ha, hp]

theorem classOf_of_shared {p : StrapPins} {a : Nat} (hp : strapsValid p = true) (ha : a < dataUnits p * bankBytes p) :
    classOf p a = .shared := by
  have hbelow : ¬ 0x1FFFF00 ≤ a := by have := sharedBytes_le p; omega
  simp [classOf, Config.windowBase, hbelow, hp, ha]

theorem classOf_of_range {p : StrapPins} {a : Nat} (hp : strapsValid p = true) (hlow : dataUnits p * bankBytes p ≤ a)
    (ha : a < 0x1FFFF00) : classOf p a = .range := by
  simp [classOf, Config.windowBase, Nat.not_le.mpr ha, hp, Nat.not_lt.mpr hlow]

/-- The four conditions exclude each other: the bound of the shared space keeps SHARED below WINDOW. -/
theorem classOf_eq_iff (p : StrapPins) (a : Nat) :
    (classOf p a = .window ↔ 0x1FFFF00 ≤ a) ∧
    (classOf p a = .shared ↔ strapsValid p = true ∧ a < dataUnits p * bankBytes p) ∧
    (classOf p a = .range ↔ strapsValid p = true ∧ dataUnits p * bankBytes p ≤ a ∧ a < 0x1FFFF00) ∧
    (classOf p a = .inert ↔ strapsValid p = false ∧ a < 0x1FFFF00) := by
  rcases Nat.lt_or_ge a 0x1FFFF00 with hbelow | hwindow
  · cases hp : strapsValid p with
    | false => simp [classOf_of_invalid hbelow hp, hbelow]
    | true =>
      rcases Nat.lt_or_ge a (dataUnits p * bankBytes p) with hshared | hrange
      · simp [classOf_of_shared hp hshared, hbelow, hshared]
      · simp [classOf_of_range hp hrange hbelow, hbelow, hrange]
  · have hbeyond : dataUnits p * bankBytes p ≤ a := by have := sharedBytes_le p; omega
    simp [classOf_of_window hwindow p, hwindow, hbeyond]

theorem windowIndex_eq_some_iff {a : Nat} (ha : a < 0x2000000) (i : Nat) :
    windowIndex a = some i ↔ 0x1FFFF00 ≤ a ∧ i = (a - 0x1FFFF00) / 4 := by
  simp [windowIndex, Config.windowBase, ha, eq_comm]

/-- Settles O15, from the conditions of the four classes and the bound of 28 MiB on the shared space. -/
theorem addressesHaveOneClass : Obligations.AddressesHaveOneClass := by
  intro p a ha
  obtain ⟨hwindow, hshared, hrange, hinert⟩ := classOf_eq_iff p a
  exact ⟨hwindow, hshared, hrange, hinert, windowIndex_eq_some_iff ha, fun _ => by omega, fun _ => sharedBytes_le p⟩

end Sys2Proof.Machine
end

section
/-! PROOFS. The repair queue (R136, R137): what the judging of the queue does, and how its head leaves by its
outcome. -/

namespace Sys2Proof.Machine

/-! ### Judging the head (R136) -/

theorem countDrops_zero {s : State} (h : s.counters.repairDrops ≤ 65535) : countDrops 0 s = s := by
  simp only [countDrops, satAdd_zero h]
  rfl

theorem judgeRepair_of_available {s : State} {st : Nat} (o : Nat) (rest : List (Nat × Nat))
    (h : (viewAt s (homeOf s.n st)).state.available = true) :
    judgeRepair s ((st, o) :: rest) = (0, (st, o) :: rest) := if_pos h

theorem judgeRepair_of_unavailable {s : State} {st : Nat} (o : Nat) (rest : List (Nat × Nat))
    (h : (viewAt s (homeOf s.n st)).state.available = false) :
    judgeRepair s ((st, o) :: rest) = ((judgeRepair s rest).1 + 1, (judgeRepair s rest).2) :=
  if_neg (Bool.not_eq_true _ ▸ h)

/-- Every word is dropped: nothing is asked for. -/
theorem repairNext_of_none_left {s : State} {k : Nat} (hout : s.holder.repairOut = false)
    (hjudge : judgeRepair s s.holder.repair = (k, [])) :
    repairNext s = countDrops k (s.setHolder { s.holder with repair := [] }) := by
  simp [repairNext, hout, hjudge]

/-- A word is left with its home available: the repair asks for it. -/
theorem repairNext_of_head_left {s : State} {k st o : Nat} {more : List (Nat × Nat)}
    (hout : s.holder.repairOut = false) (hjudge : judgeRepair s s.holder.repair = (k, (st, o) :: more)) :
    repairNext s = addAsk (repairAsk s st o) (countDrops k
      (s.setHolder { s.holder with repair := (st, o) :: more, repairOut := true })) := by
  simp only [repairNext, hout, hjudge]
  rfl

theorem repairNext_of_empty {s : State} (hout : s.holder.repairOut = false) (hrepair : s.holder.repair = [])
    (hfit : s.counters.repairDrops ≤ 65535) : repairNext s = s.setHolder { s.holder with repair := [] } := by
  have hjudge : judgeRepair s s.holder.repair = (0, []) := by rw [hrepair]; rfl
  rw [repairNext_of_none_left hout hjudge]
  exact countDrops_zero hfit

theorem repairNext_of_available {s : State} {st o : Nat} {more : List (Nat × Nat)} (hout : s.holder.repairOut = false)
    (hrepair : s.holder.repair = (st, o) :: more) (hhome : (viewAt s (homeOf s.n st)).state.available = true)
    (hfit : s.counters.repairDrops ≤ 65535) :
    repairNext s = addAsk (repairAsk s st o)
      (s.setHolder { s.holder with repair := (st, o) :: more, repairOut := true }) := by
  have hjudge : judgeRepair s s.holder.repair = (0, (st, o) :: more) := by
    rw [hrepair, judgeRepair_of_available o more hhome]
  rw [repairNext_of_head_left hout hjudge]
  exact congrArg (addAsk (repairAsk s st o)) (countDrops_zero hfit)

theorem repairNext_of_last_unavailable {s : State} {st o : Nat} (hout : s.holder.repairOut = false)
    (hrepair : s.holder.repair = [(st, o)]) (hhome : (viewAt s (homeOf s.n st)).state.available = false) :
    repairNext s = countDrops 1 (s.setHolder { s.holder with repair := [] }) := by
  have hjudge : judgeRepair s s.holder.repair = (1, []) := by
    rw [hrepair, judgeRepair_of_unavailable o [] hhome]
    rfl
  exact repairNext_of_none_left hout hjudge

/-! ### The head leaves (R137) -/

/-- The repair queue without its head, with nothing outstanding for it. -/
def repairHeadGone (rest : List (Nat × Nat)) (s : State) : State :=
  s.setHolder { s.holder with repair := rest, repairOut := false }

theorem setHolder_drop_head {h : Nat × Nat} {rest : List (Nat × Nat)} {s : State}
    (hrepair : s.holder.repair = h :: rest) :
    s.setHolder { s.holder with repair := s.holder.repair.drop 1, repairOut := false } = repairHeadGone rest s := by
  rw [hrepair]
  rfl

/-- Settles O56. The head's outcome decides whether a drop is counted; then the queue left is judged as any queue with
nothing outstanding. -/
theorem repairHeadsLeave : Obligations.RepairHeadsLeave := by
  intro h rest s hrepair hfit
  have hgone := setHolder_drop_head hrepair
  have hdrops : (repairHeadGone rest s).counters.repairDrops ≤ 65535 := hfit.repairDrops
  refine ⟨fun _ => congrArg repairNext hgone, congrArg (fun t => repairNext (countDrops 1 t)) hgone,
    congrArg (fun t => repairNext (countDrops 1 t)) hgone, ?_, ?_⟩
  · intro hempty
    have hnext := repairNext_of_empty (s := repairHeadGone rest s) rfl hempty hdrops
    exact ⟨congrArg (·.holder.repair) hnext, congrArg (·.tu) hnext, congrArg (·.counters) hnext⟩
  · rintro st o more rfl
    refine ⟨fun hhome => ?_, ?_⟩
    · exact repairNext_of_available (s := repairHeadGone _ s) rfl rfl hhome hdrops
    · rintro hhome rfl
      have hnext := repairNext_of_last_unavailable (s := repairHeadGone [(st, o)] s) rfl rfl hhome
      exact ⟨congrArg (·.holder.repair) hnext, congrArg (·.counters) hnext⟩

end Sys2Proof.Machine
end

section
/-! PROOFS. What an operation carries over. `Carried` gathers the parts of a sound state and the records that only joins
change; `Kept` adds the records of `Laws/Fixed`. Both are closed under composition, and every shared operation has one
lemma here: after it, whatever held since `r` holds still. -/

namespace Sys2Proof.Machine

/-! ### The relation -/

/-- No counter of `c` is above the same counter of `d`. -/
structure Counters.Le (c d : Counters) : Prop where
  recovered : c.recovered ≤ d.recovered
  lost : c.lost ≤ d.lost
  resyncs : c.resyncs ≤ d.resyncs
  repairDrops : c.repairDrops ≤ d.repairDrops
  writeFaults : c.writeFaults ≤ d.writeFaults
  busyRefusals : c.busyRefusals ≤ d.busyRefusals

theorem Counters.Le.refl (c : Counters) : c.Le c :=
  ⟨Nat.le_refl _, Nat.le_refl _, Nat.le_refl _, Nat.le_refl _, Nat.le_refl _, Nat.le_refl _⟩

theorem Counters.Le.trans {a b c : Counters} (h : a.Le b) (k : b.Le c) : a.Le c :=
  ⟨Nat.le_trans h.recovered k.recovered, Nat.le_trans h.lost k.lost, Nat.le_trans h.resyncs k.resyncs,
    Nat.le_trans h.repairDrops k.repairDrops, Nat.le_trans h.writeFaults k.writeFaults, Nat.le_trans h.busyRefusals k.busyRefusals⟩

/-- What the station at `t` has carried over from `r`: the straps, the own incarnation, the failed entries of others, and
each part of a sound state that held. -/
structure Carried (r t : State) : Prop where
  straps : t.straps = r.straps
  inc : t.mem.ownInc = r.mem.ownInc
  failed : ∀ j, j ≠ r.own → (viewAt r j).state = .failed → (viewAt t j).state = .failed
  counters : r.CountersFit → t.CountersFit ∧ r.counters.Le t.counters
  sized : r.Sized → t.Sized
  bounded : r.Bounded → t.Bounded
  keyed : r.Keyed → t.Keyed
  places : placesInUse r ≤ 8 → placesInUse t ≤ 8

/-- Carried over, with the straps, the reset line, the enables, the waiting commands and the bank's words as they were. -/
structure Kept (r t : State) : Prop extends Carried r t where
  fixed : t.fixed = r.fixed

variable {r s t : State}

theorem own_of_straps (h : t.straps = s.straps) : t.own = s.own := congrArg ownNo h

theorem straps_of_fixed (h : t.fixed = s.fixed) : t.straps = s.straps := congrArg (fun x => x.1) h

theorem Carried.trans (h : Carried r s) (k : Carried s t) : Carried r t where
  straps := k.straps.trans h.straps
  inc := k.inc.trans h.inc
  failed j hj hf := k.failed j (own_of_straps h.straps ▸ hj) (h.failed j hj hf)
  counters hr := ⟨(k.counters (h.counters hr).1).1, (h.counters hr).2.trans (k.counters (h.counters hr).1).2⟩
  sized hr := k.sized (h.sized hr)
  bounded hr := k.bounded (h.bounded hr)
  keyed hr := k.keyed (h.keyed hr)
  places hr := k.places (h.places hr)

theorem Kept.trans (h : Kept r s) (k : Kept s t) : Kept r t :=
  ⟨h.toCarried.trans k.toCarried, k.fixed.trans h.fixed⟩

theorem Carried.refl (s : State) : Carried s s :=
  ⟨rfl, rfl, fun _ _ h => h, fun h => ⟨h, .refl _⟩, id, id, id, id⟩

theorem Kept.refl (s : State) : Kept s s := ⟨.refl s, rfl⟩

/-- A fold of steps that each carry over carries over. -/
theorem Kept.foldl {α : Type} {g : State → α → State} (hg : ∀ {s} x, Kept r s → Kept r (g s x)) (l : List α)
    (h : Kept r s) : Kept r (l.foldl g s) := by
  induction l generalizing s with
  | nil => exact h
  | cons x l ih => exact ih (hg x h)

/-! ### What each part of a sound state rests on -/

theorem State.CountersFit.of_eq (k : s.CountersFit) (e : t.counters = s.counters) : t.CountersFit := by
  obtain ⟨h1, h2, h3, h4, h5, h6⟩ := k
  exact ⟨e ▸ h1, e ▸ h2, e ▸ h3, e ▸ h4, e ▸ h5, e ▸ h6⟩

theorem State.Sized.of_eq (k : s.Sized) (em : t.mem = s.mem) (et : t.tu = s.tu) (eh : t.home = s.home) : t.Sized := by
  obtain ⟨h1, h2, h3, h4⟩ := k
  exact ⟨em ▸ h1, et ▸ h2, et ▸ h3, eh ▸ h4⟩

theorem State.Bounded.of_eq (k : s.Bounded) (el : t.link = s.link) (eh : t.home = s.home) (eo : t.holder = s.holder)
    (ep : t.port = s.port) : t.Bounded := by
  obtain ⟨h1, h2, h3, h4, h5, h6, h7⟩ := k
  exact ⟨el ▸ h1, el ▸ h2, eh ▸ h3, eh ▸ h4, eo ▸ h5, ep ▸ h6, ep ▸ h7⟩

theorem State.Keyed.of_eq (k : s.Keyed) (ef : t.filter = s.filter) (eh : t.home = s.home) (eo : t.holder = s.holder)
    (el : t.link = s.link) : t.Keyed := by
  obtain ⟨h1, h2, h3, h4⟩ := k
  exact ⟨ef ▸ h1, eh ▸ h2, eo ▸ h3, el ▸ h4⟩

/-! ### One block changed -/

theorem Kept.setCounters {v : Counters} (h : Kept r s)
    (hv : s.CountersFit → (s.setCounters v).CountersFit ∧ s.counters.Le v) : Kept r (s.setCounters v) :=
  h.trans ⟨⟨rfl, rfl, fun _ _ hf => hf, hv, fun k => k.of_eq rfl rfl rfl,
    fun k => k.of_eq rfl rfl rfl rfl,
    fun k => k.of_eq rfl rfl rfl rfl, id⟩, rfl⟩

theorem Kept.setCauses (v : Causes) (h : Kept r s) : Kept r (s.setCauses v) :=
  h.trans ⟨⟨rfl, rfl, fun _ _ hf => hf,
    fun k => ⟨k.of_eq rfl, .refl _⟩,
    fun k => k.of_eq rfl rfl rfl,
    fun k => k.of_eq rfl rfl rfl rfl,
    fun k => k.of_eq rfl rfl rfl rfl, id⟩, rfl⟩

theorem Kept.setSweep (v : Sweep) (h : Kept r s) : Kept r (s.setSweep v) :=
  h.trans ⟨⟨rfl, rfl, fun _ _ hf => hf,
    fun k => ⟨k.of_eq rfl, .refl _⟩,
    fun k => k.of_eq rfl rfl rfl,
    fun k => k.of_eq rfl rfl rfl rfl,
    fun k => k.of_eq rfl rfl rfl rfl, id⟩, rfl⟩

theorem Carried.setBank (v : Bank) (h : Carried r s) : Carried r (s.setBank v) :=
  h.trans ⟨rfl, rfl, fun _ _ hf => hf,
    fun k => ⟨k.of_eq rfl, .refl _⟩,
    fun k => k.of_eq rfl rfl rfl,
    fun k => k.of_eq rfl rfl rfl rfl,
    fun k => k.of_eq rfl rfl rfl rfl, id⟩

theorem Kept.setBank {v : Bank} (hw : v.words = s.bank.words) (h : Kept r s) : Kept r (s.setBank v) :=
  ⟨h.toCarried.setBank v, (setBank_fixed hw).trans h.fixed⟩

theorem Carried.setEnables (v : Causes) (h : Carried r s) : Carried r (s.setEnables v) :=
  h.trans ⟨rfl, rfl, fun _ _ hf => hf,
    fun k => ⟨k.of_eq rfl, .refl _⟩,
    fun k => k.of_eq rfl rfl rfl,
    fun k => k.of_eq rfl rfl rfl rfl,
    fun k => k.of_eq rfl rfl rfl rfl, id⟩

theorem Kept.setMem {v : Membership} (h : Kept r s) (hinc : v.ownInc = s.mem.ownInc)
    (hlen : v.views.length = s.mem.views.length)
    (hfail : ∀ j, j ≠ s.own → (viewAt s j).state = .failed → (viewAt (s.setMem v) j).state = .failed) :
    Kept r (s.setMem v) :=
  h.trans ⟨⟨rfl, hinc, hfail,
    fun k => ⟨k.of_eq rfl, .refl _⟩,
    fun k => ⟨hlen.trans k.views, k.slots, k.seqs, k.accs⟩,
    fun k => k.of_eq rfl rfl rfl rfl,
    fun k => k.of_eq rfl rfl rfl rfl, id⟩, rfl⟩

theorem Kept.setFilter {v : List FilterEntry} (h : Kept r s)
    (hv : (s.filter.Pairwise fun a b => ¬(a.src = b.src ∧ a.tag = b.tag)) →
      v.Pairwise fun a b => ¬(a.src = b.src ∧ a.tag = b.tag)) : Kept r (s.setFilter v) :=
  h.trans ⟨⟨rfl, rfl, fun _ _ hf => hf,
    fun k => ⟨k.of_eq rfl, .refl _⟩,
    fun k => k.of_eq rfl rfl rfl,
    fun k => k.of_eq rfl rfl rfl rfl,
    fun k => ⟨hv k.filter, k.table, k.repair, k.notices⟩, id⟩, rfl⟩

theorem Kept.setTu {v : TxnUnit} (h : Kept r s) (hlen : v.slots.length = s.tu.slots.length)
    (hseqs : (∀ x ∈ s.tu.slots, x.seqs.length = 8) → ∀ x ∈ v.slots, x.seqs.length = 8) : Kept r (s.setTu v) :=
  h.trans ⟨⟨rfl, rfl, fun _ _ hf => hf,
    fun k => ⟨k.of_eq rfl, .refl _⟩,
    fun k => ⟨k.views, hlen.trans k.slots, hseqs k.seqs, k.accs⟩,
    fun k => k.of_eq rfl rfl rfl rfl,
    fun k => k.of_eq rfl rfl rfl rfl, id⟩, rfl⟩

theorem Kept.setPort {v : Port} (h : Kept r s) (hlen : s.port.entries.length ≤ 8 → v.entries.length ≤ 8)
    (hstart : s.port.entries.countP (·.started) ≤ 4 → v.entries.countP (·.started) ≤ 4) : Kept r (s.setPort v) :=
  h.trans ⟨⟨rfl, rfl, fun _ _ hf => hf,
    fun k => ⟨k.of_eq rfl, .refl _⟩,
    fun k => k.of_eq rfl rfl rfl,
    fun k => ⟨k.inbound, k.inbox, k.table, k.pool, k.repair, hlen k.entries, hstart k.started⟩,
    fun k => k.of_eq rfl rfl rfl rfl, id⟩, rfl⟩

theorem Kept.setHome {v : Home} (h : Kept r s) (haccs : s.home.accs.length = 2 → v.accs.length = 2)
    (htable : s.home.table.length ≤ 16 → v.table.length ≤ 16) (hpool : s.home.pool.length ≤ 32 → v.pool.length ≤ 32)
    (hkey : (s.home.table.Pairwise fun a b => a.stripe ≠ b.stripe) → v.table.Pairwise fun a b => a.stripe ≠ b.stripe) :
    Kept r (s.setHome v) :=
  h.trans ⟨⟨rfl, rfl, fun _ _ hf => hf,
    fun k => ⟨k.of_eq rfl, .refl _⟩,
    fun k => ⟨k.views, k.slots, k.seqs, haccs k.accs⟩,
    fun k => ⟨k.inbound, k.inbox, htable k.table, hpool k.pool, k.repair, k.entries, k.started⟩,
    fun k => ⟨k.filter, hkey k.table, k.repair, k.notices⟩, id⟩, rfl⟩

theorem Kept.setHolder {v : Holder} (h : Kept r s) (hlen : s.holder.repair.length ≤ 8 → v.repair.length ≤ 8)
    (hkey : s.holder.repair.Nodup → v.repair.Nodup) (hplaces : placesInUse s ≤ 8 → placesInUse (s.setHolder v) ≤ 8) :
    Kept r (s.setHolder v) :=
  h.trans ⟨⟨rfl, rfl, fun _ _ hf => hf,
    fun k => ⟨k.of_eq rfl, .refl _⟩,
    fun k => k.of_eq rfl rfl rfl,
    fun k => ⟨k.inbound, k.inbox, k.table, k.pool, hlen k.repair, k.entries, k.started⟩,
    fun k => ⟨k.filter, k.table, hkey k.repair, k.notices⟩, hplaces⟩, rfl⟩

/-- The queued notices of the state answer to different matters (R35). -/
def NoticesApart (q : List OutMsg) : Prop := q.Pairwise fun a b => noticeReplaces a.msg b.msg = false

/-- The places that the link's queued replies and a withdrawn one in transmission take (R34, R35). -/
def Link.replyLoad (l : Link) : Nat := l.replies.q.length + (l.bus.detachedFrom .reply).toNat

theorem placesInUse_setLink (s : State) (v : Link) :
    placesInUse (s.setLink v) + s.link.replyLoad = placesInUse s + v.replyLoad := by
  simp only [placesInUse, Link.replyLoad, State.setLink_link, State.setLink_holder]
  omega

theorem freePlaces_eq (s : State) : freePlaces s = 8 - placesInUse s := rfl

/-- Replies may be added, where places are free; this and the other growths are bounded by their hypotheses. -/
theorem Kept.setLink {v : Link} (h : Kept r s) (hin : s.link.inbound.length ≤ 16 → v.inbound.length ≤ 16)
    (hbox : s.link.inbox.length ≤ 16 → v.inbox.length ≤ 16)
    (hkey : NoticesApart s.link.notices.q → NoticesApart v.notices.q)
    (hplaces : placesInUse r ≤ 8 → placesInUse s ≤ 8 → placesInUse (s.setLink v) ≤ 8) : Kept r (s.setLink v) := by
  refine ⟨⟨h.straps, h.inc, h.failed, fun k => ?_, fun k => ?_, fun k => ?_, fun k => ?_, fun k => ?_⟩, h.fixed⟩
  · obtain ⟨⟨h1, h2, h3, h4, h5, h6⟩, hle⟩ := h.counters k
    exact ⟨⟨h1, h2, h3, h4, h5, h6⟩, hle⟩
  · obtain ⟨h1, h2, h3, h4⟩ := h.sized k
    exact ⟨h1, h2, h3, h4⟩
  · obtain ⟨h1, h2, h3, h4, h5, h6, h7⟩ := h.bounded k
    exact ⟨hin h1, hbox h2, h3, h4, h5, h6, h7⟩
  · obtain ⟨h1, h2, h3, h4⟩ := h.keyed k
    exact ⟨h1, h2, h3, hkey h4⟩
  · exact hplaces k (h.places k)

/-- A change of the link that puts nothing into a queue. -/
theorem Kept.shrinkLink {v : Link} (h : Kept r s) (hin : v.inbound.length ≤ s.link.inbound.length)
    (hbox : v.inbox.length ≤ s.link.inbox.length) (hnotices : v.notices.q.Sublist s.link.notices.q)
    (hload : v.replyLoad ≤ s.link.replyLoad) : Kept r (s.setLink v) := by
  refine h.setLink (Nat.le_trans hin) (Nat.le_trans hbox) (fun k => k.sublist hnotices) fun _ k => ?_
  have := placesInUse_setLink s v
  omega

/-- A change of the home that takes no place and keeps the stripes of its table. -/
theorem Kept.shrinkHome {v : Home} (h : Kept r s) (haccs : v.accs.length = s.home.accs.length)
    (htable : (v.table.map (·.stripe)).Sublist (s.home.table.map (·.stripe))) (hpool : v.pool.length ≤ s.home.pool.length) :
    Kept r (s.setHome v) := by
  refine h.setHome haccs.trans (fun k => ?_) (Nat.le_trans hpool) fun k => ?_
  · simpa using Nat.le_trans htable.length_le (by simpa using k)
  · rw [← List.pairwise_map (f := Entry.stripe) (R := (· ≠ ·))] at k ⊢
    exact k.sublist htable

end Sys2Proof.Machine
end

section
/-! PROOFS. The shared operations of `Machine/Flags`, `Ops`, `PortOps` and `HomeTable` carry over (`Kept`). The ones that
take a place say where the place comes from. -/

namespace Sys2Proof.Machine

variable {r s : State}

/-! ### Counters and causes -/

theorem Kept.countRecovered (h : Kept r s) : Kept r (countRecovered s) :=
  h.setCounters fun ⟨h1, h2, h3, h4, h5, h6⟩ => ⟨⟨satAdd_le _ _, h2, h3, h4, h5, h6⟩,
    { Counters.Le.refl s.counters with recovered := le_satAdd 1 h1 }⟩

theorem Kept.countLost (k : Nat) (h : Kept r s) : Kept r (countLost k s) :=
  h.setCounters fun ⟨h1, h2, h3, h4, h5, h6⟩ => ⟨⟨h1, satAdd_le _ _, h3, h4, h5, h6⟩,
    { Counters.Le.refl s.counters with lost := le_satAdd k h2 }⟩

theorem Kept.countResync (h : Kept r s) : Kept r (countResync s) :=
  h.setCounters fun ⟨h1, h2, h3, h4, h5, h6⟩ => ⟨⟨h1, h2, satAdd_le _ _, h4, h5, h6⟩,
    { Counters.Le.refl s.counters with resyncs := le_satAdd 1 h3 }⟩

theorem Kept.countDrops (k : Nat) (h : Kept r s) : Kept r (countDrops k s) :=
  h.setCounters fun ⟨h1, h2, h3, h4, h5, h6⟩ => ⟨⟨h1, h2, h3, satAdd_le _ _, h5, h6⟩,
    { Counters.Le.refl s.counters with repairDrops := le_satAdd k h4 }⟩

theorem Kept.countBusy (h : Kept r s) : Kept r (countBusy s) :=
  h.setCounters fun ⟨h1, h2, h3, h4, h5, h6⟩ => ⟨⟨h1, h2, h3, h4, h5, satAdd_le _ _⟩,
    { Counters.Le.refl s.counters with busyRefusals := le_satAdd 1 h6 }⟩

theorem Kept.causeView (b : Bool) (h : Kept r s) : Kept r (causeView b s) := h.setCauses _

theorem Kept.causeAudit (h : Kept r s) : Kept r (causeAudit s) := h.setCauses _

theorem Kept.causeRebuildDone (h : Kept r s) : Kept r (causeRebuildDone s) := h.setCauses _

theorem Kept.writeFault (addr : Nat) (k : PortFault) (h : Kept r s) : Kept r (writeFault addr k s) := by
  have hcount : Kept r (s.setCounters { s.counters with writeFaults := satAdd s.counters.writeFaults 1 }) :=
    h.setCounters fun ⟨h1, h2, h3, h4, h5, h6⟩ => ⟨⟨h1, h2, h3, h4, satAdd_le _ _, h6⟩,
      { Counters.Le.refl s.counters with writeFaults := le_satAdd 1 h5 }⟩
  exact (hcount.setPort (by exact id) (by exact id)).setCauses _

theorem Kept.clearCauses (lanes : Lanes) (data : Word) (h : Kept r s) : Kept r (clearCauses lanes data s) :=
  (h.setCauses _).setPort (by exact id) (by exact id)

/-! ### The bank's claims, the view, the link's queues -/

theorem Kept.dueClaim (who : Claimant) (c : Claim) (h : Kept r s) : Kept r (dueClaim who c s) :=
  h.setBank (by cases who <;> rfl)

/-- A view entry other than the own one may be replaced where that lifts no failure. -/
theorem Kept.setView (j : Nat) (v : ViewEntry) (h : Kept r s)
    (hv : j ≠ s.own → (viewAt s j).state = .failed → v.state = .failed) : Kept r (setView j v s) := by
  refine h.setMem rfl (by simp [setAt]) fun i hi hf => ?_
  simp only [viewAt, State.setMem_mem, setAt, List.getD_eq_getElem?_getD, List.getElem?_set] at hf hv ⊢
  split
  next hij =>
    subst hij
    split
    · exact hv hi hf
    next hlen => simp [List.getElem?_eq_none (Nat.not_lt.mp hlen)] at hf
  next => exact hf

theorem Kept.setOwnState (x : OwnState) (h : Kept r s) : Kept r (setOwnState x s) := by
  have hstate : Kept r (s.setMem { s.mem with ownState := x }) := h.setMem rfl rfl fun _ _ hf => hf
  exact hstate.setView _ _ fun hown => absurd rfl hown

theorem replyLoad_detach_le (b : Bus) (sel : OutSel) :
    ((b.detach sel).detachedFrom .reply).toNat ≤ (b.detachedFrom .reply).toNat + (decide (sel = .reply)).toNat := by
  rcases b with _ | ⟨x, m, d⟩ | _
  · simp [Bus.detach, Bus.detachedFrom]
  · cases sel <;> cases d <;> simp [Bus.detach, Bus.detachedFrom, Bool.toNat_le] <;> cases x <;> decide
  · simp [Bus.detach, Bus.detachedFrom]

theorem withdraw_eq (sel : OutSel) (p : OutMsg → Bool) (s : State) :
    withdraw sel p s = s.setLink (withdraw sel p s).link := by
  unfold withdraw
  dsimp only
  split
  · rfl
  · split <;> rfl

/-- A withdrawal takes messages out of the queue named and touches no other. -/
theorem withdraw_link (sel : OutSel) (p : OutMsg → Bool) (s : State) (x : OutSel) :
    ((withdraw sel p s).link.out x).q = if x = sel then (s.link.out x).q.filter (fun m => !p m) else (s.link.out x).q := by
  unfold withdraw
  dsimp only
  split
  next hq =>
    split
    next hx => rw [hx, hq]; rfl
    next => rfl
  · split <;> cases sel <;> cases x <;> rfl

theorem withdraw_inbound (sel : OutSel) (p : OutMsg → Bool) (s : State) :
    (withdraw sel p s).link.inbound = s.link.inbound ∧ (withdraw sel p s).link.inbox = s.link.inbox := by
  unfold withdraw
  dsimp only
  split
  · exact ⟨rfl, rfl⟩
  · split <;> cases sel <;> exact ⟨rfl, rfl⟩

/-- A withdrawn reply in transmission takes the place it had as the head (R34). -/
theorem replyLoad_withdraw_le (sel : OutSel) (p : OutMsg → Bool) (s : State) :
    (withdraw sel p s).link.replyLoad ≤ s.link.replyLoad := by
  have hdet := replyLoad_detach_le s.link.bus sel
  unfold withdraw
  dsimp only
  split
  · exact Nat.le_refl _
  next head rest hcons =>
    have hrest := List.length_filter_le (fun m => !p m) rest
    split
    next hp =>
      cases sel with
      | reply =>
        simp only [Link.out] at hcons
        simp [Link.replyLoad, Link.setOut, Link.out, hcons, hp] at hdet ⊢
        omega
      | request => exact Nat.add_le_add_left hdet _
      | notice => exact Nat.add_le_add_left hdet _
    next =>
      cases sel with
      | reply => exact Nat.add_le_add_right (List.length_filter_le _ _) _
      | request => exact Nat.le_refl _
      | notice => exact Nat.le_refl _

theorem Kept.withdraw (sel : OutSel) (p : OutMsg → Bool) (h : Kept r s) : Kept r (withdraw sel p s) := by
  obtain ⟨hin, hbox⟩ := withdraw_inbound sel p s
  have hnotices := withdraw_link sel p s .notice
  rw [withdraw_eq]
  refine h.shrinkLink (hin ▸ Nat.le_refl _) (hbox ▸ Nat.le_refl _) ?_ (replyLoad_withdraw_le sel p s)
  simp only [Link.out] at hnotices
  rw [hnotices]
  split
  · exact List.filter_sublist
  · exact List.Sublist.refl _

theorem Kept.waitHead (h : Kept r s) : Kept r (waitHead s) := by
  unfold Machine.waitHead
  split
  · exact h
  · exact h.shrinkLink (by simp) (by simp) (by simp) (Nat.le_refl _)

theorem Kept.popInbound (h : Kept r s) : Kept r (popInbound s) :=
  h.shrinkLink (by simp) (by simp) (by simp) (Nat.le_refl _)

/-- A reply takes a place that is free. -/
theorem Kept.pushReply (m : OutMsg) (h : Kept r s) (hroom : placesInUse r ≤ 8 → placesInUse s < 8) :
    Kept r (pushReply m s) := by
  refine h.setLink (by exact id) (by exact id) (by exact id) fun hr _ => ?_
  have hlt := hroom hr
  simp only [placesInUse, State.setLink_link, State.setLink_holder, List.length_append, List.length_cons,
    List.length_nil] at hlt ⊢
  omega

/-! ### Notices -/

/-- The matter a notice is about: the own state, or a failure with its destination and, to ALL, its target (R35). -/
def Msg.matter (m : Msg) : Option (Option (Dest × Nat)) :=
  match m.kind with
  | .hello | .state => some none
  | .fail => some (some (m.dest, if m.dest = .all then m.target else 0))
  | _ => none

theorem matter_eq_own_iff (m : Msg) : m.matter = some none ↔ m.kind = .hello ∨ m.kind = .state := by
  unfold Msg.matter
  split <;> simp_all

theorem matter_eq_fail_iff (m : Msg) (d : Dest) (n : Nat) : m.matter = some (some (d, n)) ↔
    m.kind = .fail ∧ m.dest = d ∧ (if m.dest = .all then m.target else 0) = n := by
  unfold Msg.matter
  split <;> simp_all

/-- A notice replaces the queued notices of its matter (R35). -/
theorem noticeReplaces_iff (a b : Msg) : noticeReplaces a b = true ↔ a.matter ≠ none ∧ a.matter = b.matter := by
  cases hm : a.matter with
  | none =>
    have hother : noticeReplaces a b = false := by
      unfold Msg.matter at hm
      unfold noticeReplaces
      split at hm <;> simp_all
    simp [hother]
  | some x =>
    rw [eq_comm (a := some x)]
    cases x with
    | none =>
      rw [matter_eq_own_iff]
      rcases (matter_eq_own_iff a).1 hm with h | h <;> simp [noticeReplaces, h]
    | some y =>
      obtain ⟨d, n⟩ := y
      obtain ⟨h, rfl, hn⟩ := (matter_eq_fail_iff a d n).1 hm
      rw [matter_eq_fail_iff, ← hn]
      cases hd : a.dest <;> simp only [noticeReplaces, h, hd] <;> grind

theorem noticeReplaces_comm (a b : Msg) : noticeReplaces a b = noticeReplaces b a := by
  rw [Bool.eq_iff_iff, noticeReplaces_iff, noticeReplaces_iff]
  constructor <;> rintro ⟨h, e⟩ <;> exact ⟨e ▸ h, e.symm⟩

theorem noticeReplaces_congr {a b : Msg} (h : noticeReplaces a b = true) (c : Msg) :
    noticeReplaces b c = noticeReplaces a c := by
  have e := ((noticeReplaces_iff a b).1 h).2
  rw [Bool.eq_iff_iff, noticeReplaces_iff, noticeReplaces_iff, e]

theorem mem_replaceFirst {p : OutMsg → Bool} {x z : OutMsg} {l : List OutMsg} (h : z ∈ replaceFirst p x l) :
    z = x ∨ z ∈ l := by
  induction l with
  | nil => simp [replaceFirst] at h
  | cons y l ih =>
    simp only [replaceFirst] at h
    split at h
    · exact (List.mem_cons.1 h).imp_right (List.mem_cons_of_mem y)
    · rcases List.mem_cons.1 h with rfl | h
      · exact .inr List.mem_cons_self
      · exact (ih h).imp_right (List.mem_cons_of_mem y)

/-- The first notice of a matter gives way to another of the same matter. -/
theorem NoticesApart.replaceFirst {x : OutMsg} {l : List OutMsg} (h : NoticesApart l) :
    NoticesApart (replaceFirst (fun y => noticeReplaces x.msg y.msg) x l) := by
  induction l with
  | nil => exact h
  | cons y l ih =>
    obtain ⟨hy, hl⟩ := List.pairwise_cons.1 h
    simp only [Machine.replaceFirst]
    split
    next hxy => exact List.pairwise_cons.2 ⟨fun z hz => noticeReplaces_congr hxy z.msg ▸ hy z hz, hl⟩
    next hxy =>
      refine List.pairwise_cons.2 ⟨fun z hz => ?_, ih hl⟩
      rcases mem_replaceFirst hz with rfl | hz
      · rw [noticeReplaces_comm]
        simpa using hxy
      · exact hy z hz

theorem NoticesApart.append {x : OutMsg} {l : List OutMsg} (h : NoticesApart l)
    (hx : l.any (fun y => noticeReplaces x.msg y.msg) = false) : NoticesApart (l ++ [x]) := by
  refine List.pairwise_append.2 ⟨h, List.pairwise_singleton _ _, fun y hy z hz => ?_⟩
  obtain rfl := List.mem_singleton.1 hz
  rw [noticeReplaces_comm]
  simpa using List.any_eq_false.1 hx y hy

theorem Kept.queueNotice (n : Msg) (h : Kept r s) : Kept r (queueNotice n s) := by
  have hload : ∀ v : Link, v.replyLoad ≤ s.link.replyLoad → placesInUse s ≤ 8 → placesInUse (s.setLink v) ≤ 8 := by
    intro v hv _
    have := placesInUse_setLink s v
    omega
  unfold Machine.queueNotice
  dsimp only
  split
  · exact h
  · split
    · refine h.setLink (by exact id) (by exact id) (fun k => NoticesApart.replaceFirst (x := ⟨stamp s n, none⟩) k) fun _ => hload _ ?_
      have := replyLoad_detach_le s.link.bus .notice
      simp only [Link.replyLoad]
      split
      · simpa using this
      · exact Nat.le_refl _
    next hnew =>
      exact h.setLink (by exact id) (by exact id) (fun k => k.append (by simpa using hnew)) fun _ =>
        hload _ (Nat.le_refl _)

/-! ### The duplicate filter -/

theorem Kept.filterTake (m : Msg) (h : Kept r s) : Kept r (filterTake m s) := by
  refine h.setFilter fun k => List.pairwise_append.2 ⟨k.filter _, List.pairwise_singleton _ _, fun a ha b hb => ?_⟩
  obtain rfl := List.mem_singleton.1 hb
  have hother := (List.mem_filter.1 ha).2
  exact fun hab => by simp [hab.1, hab.2] at hother

theorem Kept.filterStep (src tag : Nat) (seq : Bool) (x : FilterState) (h : Kept r s) :
    Kept r (filterStep src tag seq x s) := by
  change Kept r (s.setFilter (Machine.filterStep src tag seq x s).filter)
  rw [filterStep_filter]
  refine h.setFilter fun k => ?_
  rw [← List.pairwise_map (f := fun e : FilterEntry => (e.src, e.tag)) (R := fun a b => ¬(a.1 = b.1 ∧ a.2 = b.2))] at k ⊢
  rw [List.map_map, List.map_congr_left (g := fun e => (e.src, e.tag)) fun e _ => ?_]
  · exact k
  · dsimp only [Function.comp]
    split <;> rfl

theorem Kept.filterPark (who : Requester) (parked : Bool) (h : Kept r s) : Kept r (filterPark who parked s) := by
  cases who with
  | peer src tag seq => exact h.filterStep src tag seq _
  | own _ | internalAudit | internalRebuild | internalList | nobody => exact h

theorem Kept.filterDone (m : Msg) (h : Kept r s) : Kept r (filterDone m s) := by
  unfold Machine.filterDone
  split
  · split
    · exact h.filterStep _ _ _ _
    · exact h
  · exact h

/-! ### Slots -/

theorem Kept.setSlot {x : Slot} (t : Nat) (h : Kept r s) (hx : x.seqs.length = (slotAt s t).seqs.length) :
    Kept r (setSlot t x s) := by
  refine h.setTu (by simp [setAt]) fun k y hy => ?_
  obtain ⟨i, hi, rfl⟩ := List.mem_iff_getElem.1 hy
  have hi' : i < s.tu.slots.length := by simpa [setAt] using hi
  simp only [setAt, List.getElem_set]
  split
  next hti =>
    subst hti
    rw [hx, slotAt, List.getD_eq_getElem?_getD, List.getElem?_eq_getElem hi', Option.getD_some]
    exact k _ (List.getElem_mem hi')
  next => exact k _ (List.getElem_mem hi')

theorem Kept.addAsk (a : Ask) (h : Kept r s) : Kept r (addAsk a s) := h.setTu rfl (by exact id)

theorem Kept.setAsks (l : List Ask) (h : Kept r s) : Kept r (s.setTu { s.tu with asks := l }) := h.setTu rfl (by exact id)

theorem Kept.queueCopy (t : Nat) (h : Kept r s) : Kept r (queueCopy t s) := by
  have hlink : Kept r (s.setLink { s.link with requests := { s.link.requests with
      q := s.link.requests.q ++ [{ msg := stamp s (slotMsg t (slotAt s t)) }] } }) :=
    h.shrinkLink (Nat.le_refl _) (Nat.le_refl _) (List.Sublist.refl _) (Nat.le_refl _)
  exact hlink.setSlot t (by rfl)

theorem Kept.withdrawCopy (t : Nat) (h : Kept r s) : Kept r (withdrawCopy t s) := h.withdraw _ _

theorem Kept.endSlot (t : Nat) (h : Kept r s) : Kept r (endSlot t s) := (h.setSlot t (by rfl)).withdrawCopy t

theorem Kept.setHandoffs (l : List Nat) (h : Kept r s) : Kept r (s.setHome { s.home with handoffs := l }) :=
  h.shrinkHome rfl (List.Sublist.refl _) (Nat.le_refl _)

theorem Kept.setHolderHandoffs (l : List Nat) (h : Kept r s) : Kept r (s.setHolder { s.holder with handoffs := l }) :=
  h.setHolder (by exact id) (by exact id) (by exact id)

theorem Kept.handOff (t : Nat) (h : Kept r s) : Kept r (handOff t s) := by
  unfold Machine.handOff
  dsimp only
  split
  · exact (h.setSlot t (by rfl)).setHandoffs _
  · exact (h.setSlot t (by rfl)).setHolderHandoffs _

theorem Kept.grantSlot (a : Ask) (t : Nat) (h : Kept r s) : Kept r (grantSlot a t s).1 := by
  unfold Machine.grantSlot
  dsimp only
  split
  · exact (h.setSlot t (by simp [setAt])).handOff t
  · split
    · exact (h.setSlot t (by simp [setAt])).queueCopy t
    · exact h.setSlot t (by simp [setAt])

/-! ### The local port -/

theorem Kept.completeRead (data : Word) (err : Bool) (h : Kept r s) : Kept r (completeRead data err s) :=
  h.setPort (by exact id) (by exact id)

theorem Kept.releaseWrite (h : Kept r s) : Kept r (releaseWrite s) := h.setPort (by exact id) (by exact id)

theorem Kept.dropEntry (addr : Nat) (h : Kept r s) : Kept r (dropEntry addr s) :=
  h.setPort (Nat.le_trans (List.length_eraseP_le ..)) (Nat.le_trans (List.eraseP_sublist.countP_le ..))

theorem Kept.secondPhase (addr : Nat) (h : Kept r s) : Kept r (secondPhase addr s) := by
  refine h.setPort (by simp) fun k => ?_
  rw [List.countP_map]
  refine Nat.le_trans (List.countP_mono_left fun e _ he => ?_) k
  simp only [Function.comp_apply] at he
  split at he
  next hs => exact (Bool.and_eq_true_iff.1 hs).2
  next => exact he

theorem Kept.finishRead (e : LocalEntry) (w : Word) (h : Kept r s) : Kept r (finishRead e w s) :=
  (h.dropEntry _).completeRead _ _

theorem Kept.finishReadLost (e : LocalEntry) (h : Kept r s) : Kept r (finishReadLost e s) :=
  ((h.dropEntry _).completeRead _ _).countLost 1

theorem Kept.finishWriteLost (e : LocalEntry) (h : Kept r s) : Kept r (finishWriteLost e s) :=
  (h.dropEntry _).writeFault _ _

theorem Kept.nextPhase (e : LocalEntry) (h : Kept r s) : Kept r (Machine.addAsk (secondAsk s e) (Machine.secondPhase e.addr s)) :=
  (h.secondPhase _).addAsk _

theorem Kept.readOutcome (e : LocalEntry) (o : Outcome) (h : Kept r s) : Kept r (readOutcome e o s) := by
  unfold Machine.readOutcome
  split
  · exact h.finishRead _ _
  · split
    · exact h.nextPhase e
    · exact h.finishReadLost e

theorem Kept.writeOutcome (e : LocalEntry) (o : Outcome) (h : Kept r s) : Kept r (writeOutcome e o s) := by
  have hturned : Kept r (if e.phase == .first && reachable s (holderOf s.n e.stripe e.position) then
      Machine.addAsk (secondAsk s e) (Machine.secondPhase e.addr s) else Machine.finishWriteLost e s) := by
    split
    · exact h.nextPhase e
    · exact h.finishWriteLost e
  cases o with
  | replied m =>
    simp only [Machine.writeOutcome]
    split
    · exact h.dropEntry _
    · exact h.finishWriteLost e
  | notReady => exact hturned
  | unavailable => exact hturned

theorem Kept.portOutcome (addr : Nat) (o : Outcome) (h : Kept r s) : Kept r (portOutcome addr o s) := by
  unfold Machine.portOutcome
  split
  · exact h
  · split
    · exact h.writeOutcome _ o
    · exact h.readOutcome _ o

theorem Kept.ownReply (t : Nat) (m : Msg) (h : Kept r s) : Kept r (ownReply t m s) := by
  unfold Machine.ownReply
  dsimp only
  split
  · exact h
  · split
    · exact h.setSlot t (by rfl)
    · exact h.setSlot t (by rfl)
    · split
      · exact (h.endSlot t).portOutcome _ _
      · exact h.endSlot t

/-! ### Replies -/

theorem Kept.holdReply (m : OutMsg) (h : Kept r s) :
    Kept r (s.setLink { s.link with waiters := s.link.waiters ++ [.reply m] }) :=
  h.shrinkLink (Nat.le_refl _) (Nat.le_refl _) (List.Sublist.refl _) (Nat.le_refl _)

theorem placesInUse_filterDone (m : Msg) (s : State) : placesInUse (filterDone m s) = placesInUse s := by
  simp only [placesInUse, filterDone_keeps]

theorem Kept.emitReply (m : Msg) (h : Kept r s) : Kept r (emitReply m s) := by
  unfold Machine.emitReply
  split
  · exact h.filterDone m
  · split
    next hfree =>
      refine (h.filterDone m).pushReply _ fun _ => ?_
      have hroom : 0 < freePlaces s := by simpa using (Bool.and_eq_true_iff.1 hfree).2
      rw [freePlaces_eq] at hroom
      rw [placesInUse_filterDone]
      omega
    · exact h.holdReply _

theorem Kept.tellRequester (who : Requester) (m : Msg) (h : Kept r s) : Kept r (tellRequester who m s) := by
  cases who with
  | peer src tag seq => exact h.emitReply _
  | own t => exact h.ownReply t m
  | internalAudit | internalRebuild | internalList | nobody => exact h

theorem Kept.holdRequester (who : Requester) (h : Kept r s) : Kept r (holdRequester who s) :=
  (h.filterPark who true).tellRequester who _

/-- The head's answer takes the place the head had. -/
theorem Kept.answerHead (m : Msg) (h : Kept r s) (hroom : placesInUse r ≤ 8 → placesInUse s < 8) :
    Kept r (answerHead m s) := by
  unfold Machine.answerHead
  split
  · exact h.filterDone m
  · exact (h.filterDone m).pushReply _ (by rwa [placesInUse_filterDone])

/-- A peer's answer takes a place; an own slot's takes none. -/
theorem Kept.firstAnswer (who : Requester) (m : Msg) (h : Kept r s)
    (hroom : ∀ src tag seq, who = .peer src tag seq → placesInUse r ≤ 8 → placesInUse s < 8) :
    Kept r (firstAnswer who m s) := by
  cases who with
  | peer src tag seq => exact h.answerHead _ (hroom src tag seq rfl)
  | own t => exact h.ownReply t m
  | internalAudit | internalRebuild | internalList | nobody => exact h

/-! ### The stripe table and the pool -/

theorem Kept.settle (h : Kept r s) : Kept r (settle s) :=
  h.shrinkHome rfl (List.filter_sublist.map _) (Nat.le_refl _)

/-- A place is taken where the pool has one, and the table one for a stripe that has no entry. -/
theorem Kept.takePlace (p : Place) (h : Kept r s) (hpool : s.home.pool.length < 32)
    (htable : s.home.hasEntry p.stripe = true ∨ s.home.table.length < 16) : Kept r (takePlace p s) := by
  have haccs : (s.home.ensure p.stripe).accs = s.home.accs := by unfold Home.ensure; split <;> rfl
  refine h.setHome (congrArg List.length haccs).trans (fun k => ?_) (fun _ => by simp; omega) fun k => ?_
  · dsimp only [Home.ensure]
    split
    · exact k
    next hno => simpa using Nat.succ_le_of_lt (htable.resolve_left hno)
  · dsimp only [Home.ensure]
    split
    · exact k
    next hno =>
      refine List.pairwise_append.2 ⟨k, List.pairwise_singleton _ _, fun a ha b hb => ?_⟩
      obtain rfl := List.mem_singleton.1 hb
      have := List.any_eq_false.1 (Bool.not_eq_true _ ▸ hno) a ha
      simpa using this

/-- An entry of the table is changed and keeps its stripe. -/
theorem Kept.mapEntry (st : Nat) {g : Entry → Entry} (h : Kept r s) (hg : ∀ e, (g e).stripe = e.stripe) :
    Kept r (s.setHome (s.home.mapEntry st g)) := by
  refine h.shrinkHome rfl ?_ (Nat.le_refl _)
  have hsame : (s.home.mapEntry st g).table.map (·.stripe) = s.home.table.map (·.stripe) := by
    simp only [Home.mapEntry, List.map_map]
    refine List.map_congr_left fun e _ => ?_
    simp only [Function.comp_apply]
    split
    · exact hg e
    · rfl
  exact hsame ▸ List.Sublist.refl _

theorem Kept.mapOp (st : Nat) (g : Op → Op) (h : Kept r s) : Kept r (mapOp st g s) := h.mapEntry st fun _ => rfl

theorem Kept.listRecompute (st o : Nat) (h : Kept r s) : Kept r (listRecompute st o s) := h.mapEntry st fun _ => rfl

/-- The pool changed where it grows by no place. -/
theorem Kept.setPool {l : List Place} (h : Kept r s) (hl : l.length ≤ s.home.pool.length) :
    Kept r (s.setHome { s.home with pool := l }) := h.shrinkHome rfl (List.Sublist.refl _) hl

theorem Kept.freePlace (p : Place → Bool) (h : Kept r s) : Kept r (freePlace p s) :=
  h.setPool (List.length_eraseP_le ..)

theorem Kept.movePlace (p : Place → Bool) (g : Place → Place) (h : Kept r s) : Kept r (movePlace p g s) := by
  unfold Machine.movePlace
  split
  · exact h
  next x hx =>
    refine h.setPool ?_
    have hlen := List.length_eraseP_of_mem (List.mem_of_find?_eq_some hx) (List.find?_some hx)
    have := List.length_pos_of_mem (List.mem_of_find?_eq_some hx)
    simp
    omega

end Sys2Proof.Machine
end

section
/-! PROOFS. The shared operations of `Machine/SweepOps`, `HomeOps`, `MemberOps` and `JoinOps` carry over (`Kept`). -/

namespace Sys2Proof.Machine

variable {r s : State}

/-! ### The sweep unit -/

theorem Kept.goActive (h : Kept r s) : Kept r (goActive s) := ((h.setOwnState .active).queueNotice _).setSweep _

theorem Kept.fillClaim (st : Nat) (h : Kept r s) : Kept r (fillClaim st s) := h.dueClaim _ _

theorem Kept.setFillProgress (p : Nat) (h : Kept r s) : Kept r (s.setMem { s.mem with fillProgress := p }) :=
  h.setMem rfl rfl fun _ _ hf => hf

theorem Kept.fillAdvance (h : Kept r s) : Kept r (fillAdvance s) := by
  unfold Machine.fillAdvance
  dsimp only
  split
  · exact (h.setFillProgress _).goActive
  · exact (h.setFillProgress _).fillClaim _

/-- Room for a work of a stripe: a pool place, and a table place where the stripe has no entry. -/
theorem roomFor_iff (s : State) (st : Nat) : roomFor s st = true ↔
    s.home.pool.length < 32 ∧ (s.home.hasEntry st = true ∨ s.home.table.length < 16) := by
  simp only [roomFor, poolRoom, tableRoom, Bool.and_eq_true, Bool.or_eq_true, decide_eq_true_eq]
  rfl

theorem Kept.offerRecompute (st : Nat) (h : Kept r s) : Kept r (offerRecompute st s) := by
  unfold Machine.offerRecompute
  split
  next hroom =>
    obtain ⟨hpool, htable⟩ := (roomFor_iff s st).1 hroom
    exact (h.takePlace _ hpool htable).setSweep _
  · exact h.setSweep _

theorem Kept.askRebuild (st : Nat) (h : Kept r s) : Kept r (askRebuild st s) := (h.setSweep _).addAsk _

theorem Kept.beginStripe (st : Nat) (h : Kept r s) : Kept r (beginStripe st s) := by
  unfold Machine.beginStripe
  split
  · exact h.offerRecompute st
  · exact h.askRebuild st

theorem Kept.rebuildComplete (h : Kept r s) : Kept r (rebuildComplete s) := (h.goActive.setSweep _).causeRebuildDone

theorem Kept.rebuildAdvance (h : Kept r s) : Kept r (rebuildAdvance s) := by
  unfold Machine.rebuildAdvance
  dsimp only
  split
  · exact (h.setSweep _).rebuildComplete
  · exact (h.setSweep _).beginStripe _

theorem Kept.storeUnit (ws : List (Option Word)) (h : Kept r s) : Kept r (storeUnit ws s) := (h.setSweep _).dueClaim _ _

theorem Kept.sweepOutcome (o : Outcome) (h : Kept r s) : Kept r (sweepOutcome o s) := by
  cases o with
  | replied m => exact h.storeUnit _
  | notReady => exact h.setSweep _
  | unavailable => exact h.storeUnit _

theorem Kept.auditAdvance (h : Kept r s) : Kept r (auditAdvance s) := h.setSweep _

theorem Kept.auditEnd (x : AuditResult) (h : Kept r s) : Kept r (auditEnd x s) := by
  unfold Machine.auditEnd
  dsimp only
  split
  · exact h.setSweep _
  · exact h.auditAdvance.setSweep _

theorem Kept.admitAudit (urgent : Bool) (h : Kept r s) (hroom : roomFor s s.sweep.auditPtr = true) :
    Kept r (admitAudit urgent s) := by
  obtain ⟨hpool, htable⟩ := (roomFor_iff s _).1 hroom
  exact (h.takePlace _ hpool htable).setSweep _

theorem Kept.auditAttempt (h : Kept r s) : Kept r (auditAttempt s) := by
  unfold Machine.auditAttempt
  dsimp only
  split
  · exact h.auditAdvance
  · split
    next hroom => exact h.admitAudit false hroom
    · split
      · exact h.setSweep _
      · exact h.setSweep _

theorem Kept.withdrawUrgent (h : Kept r s) : Kept r (withdrawUrgent s) := by
  unfold Machine.withdrawUrgent
  split
  · exact h.auditAdvance.setSweep _
  · exact h

/-! ### The steps of an exclusive operation -/

theorem Kept.mapAcc (i : Nat) (g : Accum → Accum) (h : Kept r s) : Kept r (mapAcc i g s) :=
  h.shrinkHome (by simp [setAt]) (List.Sublist.refl _) (Nat.le_refl _)

theorem Kept.askNext (st : Nat) (h : Kept r s) : Kept r (askNext st s) := by
  unfold Machine.askNext
  split
  · exact h
  · split
    · exact h
    · split
      · exact h
      · exact (h.mapOp _ _).addAsk _

theorem Kept.beginStep (st : Nat) (step : OpStep) (asks : List Ask) (claims : List Claim) (h : Kept r s) :
    Kept r (beginStep st step asks claims s) :=
  (Kept.foldl (fun c k => k.dueClaim .home c) claims (h.mapOp st _)).askNext st

theorem Kept.closeOp (st : Nat) (h : Kept r s) : Kept r (closeOp st s) := by
  unfold Machine.closeOp
  split
  · exact h
  · dsimp only
    split
    · exact (h.countRecovered.mapAcc _ _).mapEntry st fun _ => rfl
    · exact (h.mapAcc _ _).mapEntry st fun _ => rfl

theorem Kept.closeAudit (st : Nat) (x : AuditResult) (h : Kept r s) : Kept r (closeAudit st x s) :=
  (h.closeOp st).auditEnd x

theorem Kept.sendAnswers (st : Nat) (op : Op) (h : Kept r s) : Kept r (sendAnswers st op s) :=
  Kept.foldl (fun p k => k.tellRequester p.who _) _ (h.setPool (List.length_filter_le _ _))

theorem placesInUse_closeOp (st : Nat) (s : State) : placesInUse (closeOp st s) = placesInUse s := by
  simp only [placesInUse, closeOp_keeps]

theorem Kept.replyOp (st : Nat) (h : Kept r s) : Kept r (replyOp st s) := by
  unfold Machine.replyOp
  split
  · exact h
  next op _ =>
    dsimp only
    split
    · split
      · exact (h.filterDone _).closeOp st
      · split
        next hfree =>
          have hroom : placesInUse s < 8 := by
            have hpos : 0 < freePlaces s := by simpa using (Bool.and_eq_true_iff.1 hfree).2
            rw [freePlaces_eq] at hpos
            omega
          split
          · exact ((h.mapOp st _).filterDone _).pushReply _ fun _ => by rwa [placesInUse_filterDone]
          · exact ((h.closeOp st).filterDone _).pushReply _ fun _ => by rwa [placesInUse_filterDone, placesInUse_closeOp]
        · exact (h.mapOp st _).holdReply _
    · exact (h.closeOp st).ownReply _ _
    · exact (h.sendAnswers st op).closeOp st
    · exact (h.closeOp st).rebuildAdvance
    · exact h.closeOp st
    · exact h.closeOp st

theorem Kept.decideRecover (st : Nat) (op : Op) (h : Kept r s) : Kept r (decideRecover st op s) := by
  unfold Machine.decideRecover
  dsimp only
  split <;> exact (h.mapOp st _).beginStep st _ _ _

theorem Kept.decideMerge (st : Nat) (op : Op) (h : Kept r s) : Kept r (decideMerge st op s) := by
  unfold Machine.decideMerge
  dsimp only
  split <;> exact (h.mapOp st _).beginStep st _ _ _

theorem Kept.decideDegraded (st : Nat) (op : Op) (h : Kept r s) : Kept r (decideDegraded st op s) := by
  unfold Machine.decideDegraded
  dsimp only
  split <;> exact (h.mapOp st _).beginStep st _ _ _

theorem Kept.decideRecompute (st : Nat) (op : Op) (h : Kept r s) : Kept r (decideRecompute st op s) := by
  unfold Machine.decideRecompute
  dsimp only
  split <;> exact h.beginStep st _ _ _

theorem Kept.decideRebuild (st : Nat) (op : Op) (h : Kept r s) : Kept r (decideRebuild st op s) := by
  unfold Machine.decideRebuild
  dsimp only
  split
  · exact h.replyOp st
  · exact h.beginStep st _ _ _

theorem Kept.auditOffset (st : Nat) (repair : List Nat) (h : Kept r s) : Kept r (auditOffset st repair s) := by
  unfold Machine.auditOffset
  split
  · exact h.closeAudit st _
  · split
    · exact h
    · exact ((h.mapAcc _ _).mapOp st _).beginStep st _ _ _

theorem Kept.decideFold (st : Nat) (op : Op) (h : Kept r s) : Kept r (decideFold st op s) := by
  unfold Machine.decideFold
  dsimp only
  split
  · exact h.closeAudit st _
  · split
    · split
      · exact h.auditOffset st _
      · exact h.beginStep st _ _ _
    · split
      · exact h.closeAudit st _
      · exact ((h.mapAcc _ _).mapOp st _).beginStep st _ _ _

theorem Kept.decideOffset (st : Nat) (op : Op) (h : Kept r s) : Kept r (decideOffset st op s) := by
  unfold Machine.decideOffset
  dsimp only
  split
  · exact h.auditOffset st _
  · exact h.beginStep st _ _ _
  · exact h.beginStep st _ _ _
  · exact h.causeAudit.beginStep st _ _ _

theorem Kept.opDecide (st : Nat) (op : Op) (h : Kept r s) : Kept r (opDecide st op s) := by
  unfold Machine.opDecide
  split
  · split
    · exact h.decideRecover st op
    · exact h.decideMerge st op
    · exact h.decideDegraded st op
    · exact h.decideRecompute st op
    · exact h.decideRebuild st op
    · exact h
  · exact h.replyOp st
  · exact h
  · exact h.decideFold st op
  · exact h.auditOffset st _
  · exact h.decideOffset st op
  · exact h.auditOffset st _
  · exact h.beginStep st _ _ _
  · exact h.countResync.causeAudit.closeAudit st _
  · exact h.closeAudit st _

theorem Kept.opAdvance (st : Nat) (h : Kept r s) : Kept r (opAdvance st s) := by
  unfold Machine.opAdvance
  split
  · exact h
  · split
    · exact h.opDecide st _
    · exact h

theorem Kept.accumulate (st first : Nat) (ws : List (Option Word)) (h : Kept r s) : Kept r (accumulate st first ws s) := by
  unfold Machine.accumulate
  split
  · exact h
  · split
    · exact h.mapAcc _ _
    · exact h

theorem Kept.memberUnavailable (st k : Nat) (h : Kept r s) : Kept r (stopAudit st (memberUnavailable st k s)) :=
  (h.mapOp st _).mapOp st _

theorem Kept.recordOutcome (st : Nat) (kind : Kind) (f : Fields) (o : Outcome) (h : Kept r s) :
    Kept r (recordOutcome st kind f o s) := by
  unfold Machine.recordOutcome
  split
  · exact (h.accumulate st _ _).mapOp st _
  · exact h.mapOp st _
  · split
    · split
      · exact h.countRecovered
      · exact h
    · exact h
  · exact h.memberUnavailable st _
  · exact (h.accumulate st _ _).memberUnavailable st _

theorem Kept.opOutcome (st : Nat) (kind : Kind) (f : Fields) (o : Outcome) (h : Kept r s) :
    Kept r (opOutcome st kind f o s) :=
  ((h.mapOp st _).recordOutcome st kind f o).opAdvance st

theorem Kept.opParityRead (st first : Nat) (ws : List BankWord) (h : Kept r s) : Kept r (opParityRead st first ws s) := by
  unfold Machine.opParityRead
  split
  · exact h
  · dsimp only
    split
    · exact ((h.mapOp st _).accumulate st _ _).opAdvance st
    · exact (h.mapOp st _).opAdvance st

theorem Kept.opParityWritten (st : Nat) (h : Kept r s) : Kept r (opParityWritten st s) := (h.mapOp st _).opAdvance st

theorem Kept.startWork (st : Nat) (op : Op) (h : Kept r s) : Kept r (startWork st op s) := by
  unfold Machine.startWork
  split <;> exact h.beginStep st _ _ _

theorem Kept.setAccQueue (l : List Nat) (h : Kept r s) : Kept r (s.setHome { s.home with accQueue := l }) :=
  h.shrinkHome rfl (List.Sublist.refl _) (Nat.le_refl _)

theorem Kept.startOp (st acc : Nat) (h : Kept r s) : Kept r (startOp st acc s) := by
  unfold Machine.startOp
  split
  · exact h
  · dsimp only
    split
    · exact (((h.mapAcc _ _).mapEntry st fun _ => by rfl).setAccQueue _).startWork st _
    · split
      · exact h
      · exact (((((h.freePlace _).filterPark _ _).mapAcc _ _).mapEntry st fun _ => by rfl).setAccQueue _).startWork st _

/-! ### Member writes -/

theorem Kept.settleWrite (pred : Place → Bool) (p : Place) (status : Status) (h : Kept r s) :
    Kept r (settleWrite pred p status s) := (h.freePlace pred).tellRequester _ _

theorem Kept.toAnswer (pred : Place → Bool) (p : Place) (h : Kept r s) : Kept r (toAnswer pred p s) := by
  unfold Machine.toAnswer
  split
  · exact h.freePlace pred
  · exact (h.movePlace pred _).holdRequester _

theorem Kept.toConversion (pred : Place → Bool) (k : WorkKind) (p : Place) (h : Kept r s) :
    Kept r (toConversion pred k p s) := by
  unfold Machine.toConversion
  split
  · exact h.freePlace pred
  · exact (h.movePlace pred _).holdRequester _

theorem Kept.updateOutcome (pred : Place → Bool) (p : Place) (o : Outcome) (h : Kept r s) :
    Kept r (updateOutcome pred p o s) := by
  unfold Machine.updateOutcome
  split
  · split
    · exact (h.movePlace pred _).dueClaim _ _
    · exact h.toConversion pred _ p
    all_goals exact (h.listRecompute _ _).toAnswer pred p
  all_goals exact h.toConversion pred _ p

theorem Kept.forwardOutcome (pred : Place → Bool) (p : Place) (o : Outcome) (h : Kept r s) :
    Kept r (forwardOutcome pred p o s) := by
  unfold Machine.forwardOutcome
  split <;> exact h.settleWrite pred p _

theorem Kept.memberOutcome (st tag : Nat) (kind : Kind) (o : Outcome) (h : Kept r s) :
    Kept r (memberOutcome st tag kind o s) := by
  unfold Machine.memberOutcome
  split
  · exact h
  · split
    · exact h.forwardOutcome _ _ o
    · exact h.updateOutcome _ _ o

theorem Kept.deltaApplied (st o : Nat) (old : BankWord) (h : Kept r s) : Kept r (deltaApplied st o old s) := by
  unfold Machine.deltaApplied
  split
  · exact h
  · split
    · exact h.settleWrite _ _ _
    · exact (h.listRecompute st o).toAnswer _ _

/-! ### The repair queue -/

/-- The repair queue changed where it grows by no word. -/
theorem Kept.setRepair {l : List (Nat × Nat)} (out : Bool) (h : Kept r s) (hl : l.Sublist s.holder.repair) :
    Kept r (s.setHolder { s.holder with repair := l, repairOut := out }) :=
  h.setHolder (Nat.le_trans hl.length_le) (·.sublist hl) (by exact id)

theorem judgeRepair_sublist (s : State) (l : List (Nat × Nat)) : (judgeRepair s l).2.Sublist l := by
  obtain ⟨-, ⟨front, hl, -⟩, -⟩ := judgeRepair_spec s l
  have hsub := List.sublist_append_right front (judgeRepair s l).2
  rwa [← hl] at hsub

theorem Kept.repairNext (h : Kept r s) : Kept r (repairNext s) := by
  have hjudged := h.setRepair s.holder.repairOut (judgeRepair_sublist s s.holder.repair)
  unfold Machine.repairNext
  split
  · exact h
  · dsimp only
    split
    · exact hjudged.countDrops _
    · exact ((hjudged.countDrops _).setRepair _ (List.Sublist.refl _)).addAsk _

theorem Kept.repairOffer (st o : Nat) (h : Kept r s) : Kept r (repairOffer st o s) := by
  unfold Machine.repairOffer
  split
  · exact h
  next hnew =>
    split
    · exact h.countDrops 1
    next hroom =>
      refine (h.setHolder (fun _ => ?_) (fun k => ?_) (by exact id)).repairNext
      · simp only [Config.repairPlaces] at hroom
        simp
        omega
      · have hnot : (st, o) ∉ s.holder.repair := by simpa using hnew
        refine List.nodup_append.2 ⟨k, List.pairwise_singleton _ _, fun a ha b hb hab => hnot ?_⟩
        exact List.mem_singleton.1 hb ▸ hab ▸ ha

theorem Kept.repairOutcome (o : Outcome) (h : Kept r s) : Kept r (repairOutcome o s) := by
  have hgone := h.setRepair false (List.drop_sublist 1 s.holder.repair)
  unfold Machine.repairOutcome
  dsimp only
  split
  · exact hgone.repairNext
  · exact (hgone.countDrops 1).repairNext
  · exact (hgone.countDrops 1).repairNext

/-! ### Outcomes and the change of a view entry -/

theorem Kept.handOutcome (t : Nat) (x : Slot) (o : Outcome) (h : Kept r s) : Kept r (handOutcome t x o s) := by
  unfold Machine.handOutcome
  split
  · exact h
  · exact h.portOutcome _ o
  · exact h.memberOutcome _ t _ o
  · exact h.opOutcome _ _ _ o
  · exact h.sweepOutcome o
  · exact h.repairOutcome o

theorem Kept.finishSlot (t : Nat) (o : Outcome) (h : Kept r s) : Kept r (finishSlot t o s) :=
  (h.endSlot t).handOutcome t _ o

theorem Kept.handEnded (ended : List (Nat × Slot)) (h : Kept r s) : Kept r (handEnded ended s) :=
  Kept.foldl (fun e k => k.handOutcome e.1 e.2 .unavailable) ended h

theorem Kept.dropReplies (j : Nat) (h : Kept r s) : Kept r (dropReplies j s) :=
  (h.withdraw _ _).shrinkLink (Nat.le_refl _) (Nat.le_refl _) (List.Sublist.refl _) (Nat.le_refl _)

theorem Kept.loseAtHome (j : Nat) (h : Kept r s) : Kept r (loseAtHome j s) := by
  refine Kept.foldl (fun st k => k.closeOp st) _ (h.shrinkHome rfl ?_ (List.length_filterMap_le _ _))
  rw [List.map_map]
  exact List.Sublist.refl _

theorem Kept.dropInbound (j : Nat) (h : Kept r s) : Kept r (dropInbound j s) :=
  h.shrinkLink (List.length_filter_le _ _) (Nat.le_refl _) (List.Sublist.refl _) (Nat.le_refl _)

theorem Kept.dropSource (j : Nat) (h : Kept r s) : Kept r (s.setFilter (s.filter.filter fun e => e.src != j)) :=
  h.setFilter fun k => k.filter _

/-- The change of a view entry carries over from the state with that entry replaced. -/
theorem Kept.viewDown {j : Nat} {v : ViewEntry} (h : Kept r (Machine.setView j v s)) : Kept r (viewDown j v s).1 := by
  have hslots := Kept.foldl (fun (e : Nat × Slot) k => k.endSlot e.1)
    ((slotsTo (Machine.dropReplies j (Machine.setView j v s)) j).map fun t => (t, slotAt (Machine.dropReplies j (Machine.setView j v s)) t)) (h.dropReplies j)
  have hdown := (((hslots.loseAtHome j).dropSource j).dropInbound j).causeView ((viewAt s j).state != v.state)
  unfold Machine.viewDown
  dsimp only
  split
  · exact hdown.withdrawUrgent
  · exact hdown

theorem Kept.reportUnreachable (j : Nat) (h : Kept r s) : Kept r (reportUnreachable j s) := by
  have hdown := (h.setView j { viewAt s j with state := .failed } fun _ _ => rfl).viewDown
  unfold Machine.reportUnreachable
  dsimp only
  split
  · exact h
  · exact h
  all_goals exact ((hdown.queueNotice _).handEnded _).settle

/-! ### Joining -/

theorem Kept.joinDecision (h : Kept r s) : Kept r (joinDecision s) := by
  have hclosed : Kept r (s.setMem { s.mem with working := [], window := .closed }) := h.setMem rfl rfl fun _ _ hf => hf
  unfold Machine.joinDecision
  dsimp only
  split
  · exact (((hclosed.setOwnState _).queueNotice _).setSweep _).beginStripe 0
  · split
    · exact ((hclosed.setOwnState _).setFillProgress 0).fillClaim 0
    · exact hclosed.goActive

end Sys2Proof.Machine
end

section
/-! PROOFS. The commands carry over (`Kept`), but for the resets, the expulsion, the write to the enables, the completion of
a claim and a HELLO's own view entry. -/

namespace Sys2Proof.Machine

variable {r s : State}

/-- The command completes, and whatever held since `r` holds still. -/
def KeptBy (r : State) (o : Host.Outcome State Fault Refusal) : Prop := ∃ t, o = .next t ∧ Kept r t

theorem Kept.next {t : State} (h : Kept r t) : KeptBy r (.next t) := ⟨t, rfl, h⟩

theorem KeptBy.kept {t : State} {o : Host.Outcome State Fault Refusal} (h : KeptBy r o) (ho : o = .next t) : Kept r t := by
  obtain ⟨u, hu, h⟩ := h
  cases hu.symm.trans ho
  exact h

/-! ### The host's side -/

theorem Kept.takeAccess (a : Access) (h : Kept r s) (hroom : s.port.entries.length < 8) : Kept r (takeAccess a s) := by
  have htaken : Kept r (s.setPort { s.port with entries := s.port.entries ++ [entryOf s.straps a], stalled := false }) :=
    h.setPort (fun _ => by rw [List.length_append]; exact hroom) fun k => by simpa [entryOf, LocalEntry.started] using k
  unfold Machine.takeAccess
  dsimp only
  split
  · exact htaken.releaseWrite
  · exact htaken

theorem Kept.answerAccess {effect : State → State} (a : Access) (data : Word) (err : Bool) (h : Kept r s)
    (he : a.isWrite = true → Kept r (effect s)) : Kept r (answerAccess a data err effect s) := by
  unfold Machine.answerAccess
  split
  next hw => exact (he hw).releaseWrite
  · exact h.completeRead _ _

/-- The access writes the enables: a write taken in service to word 21 of the window. -/
def Access.toEnables (p : StrapPins) (a : Access) : Prop :=
  a.isWrite = true ∧ classOf p a.addr.toNat = .window ∧ (a.addr.toNat - Config.windowBase) / 4 = 21

theorem Kept.windowWrite {i : Nat} (lanes : Lanes) (data : Word) (h : Kept r s) (hi : i ≠ 21) :
    Kept r (windowWrite i lanes data s) := by
  unfold Machine.windowWrite
  split
  · exact h.clearCauses _ _
  · simpa [hi] using h

theorem Kept.holdAccess (a : Option Access) (h : Kept r s) : Kept r (s.setPort { s.port with access := a }) :=
  h.setPort (by exact id) (by exact id)

theorem Kept.present (a : Access) (h : Kept r s) (ha : ¬ a.toEnables s.straps) : Kept r (present a s) := by
  have hheld := h.holdAccess (some a)
  unfold Machine.present
  dsimp only
  split
  · exact h
  · split
    · exact hheld.answerAccess a _ _ fun _ => hheld
    · split
      · exact hheld.answerAccess a _ _ fun _ => hheld
      · split
        next hwindow => exact hheld.answerAccess a _ _ fun hw => hheld.windowWrite _ _ fun hi => ha ⟨hw, hwindow, hi⟩
        · exact hheld.answerAccess a _ _ fun _ => hheld.writeFault _ _
        · exact hheld.answerAccess a _ _ fun _ => hheld.writeFault _ _
        · split
          next hroom => exact hheld.takeAccess a hroom
          · exact hheld.setPort (by exact id) (by exact id)

theorem Kept.execStalledAccessTaken (h : Kept r s) : KeptBy r (execStalledAccessTaken s) := by
  unfold Machine.execStalledAccessTaken
  split
  · exact h.next
  · split
    next hroom => exact (h.takeAccess _ (of_decide_eq_true (Bool.and_eq_true_iff.1 hroom).2)).next
    · exact h.next

theorem Kept.execLreqnRelease (h : Kept r s) : KeptBy r (execLreqnRelease s) := by
  unfold Machine.execLreqnRelease
  split
  · exact (h.setPort (by exact id) (by exact id)).next
  · exact h.next

theorem countP_set_le {α : Type} (p : α → Bool) (l : List α) (i : Nat) (x : α) : (l.set i x).countP p ≤ l.countP p + 1 := by
  induction l generalizing i with
  | nil => simp
  | cons y l ih =>
    cases i with
    | zero => simp only [List.set_cons_zero, List.countP_cons]; split <;> split <;> omega
    | succ i => have := ih i; simp only [List.set_cons_succ, List.countP_cons]; omega

theorem Kept.execEntryStart (h : Kept r s) : KeptBy r (execEntryStart s) := by
  unfold Machine.execEntryStart
  split
  next hfew =>
    have hfew : s.port.entries.countP (·.started) < 4 := of_decide_eq_true (Bool.and_eq_true_iff.1 hfew).2
    split
    · exact h.next
    next i _ =>
      split
      · exact h.next
      next e _ =>
        refine ((h.setPort (by simp [setAt]) fun _ => ?_).addAsk _).next
        exact Nat.le_trans (countP_set_le _ _ i _) hfew
  · exact h.next

/-! ### The group bus -/

theorem Kept.freeBus (h : Kept r s) : Kept r (s.setLink { s.link with bus := .free }) :=
  h.shrinkLink (Nat.le_refl _) (Nat.le_refl _) (List.Sublist.refl _) (Nat.add_le_add_left (Nat.zero_le _) _)

theorem Kept.execBusContention (others : List (BitVec 4)) (h : Kept r s) : KeptBy r (execBusContention others s) := by
  have hlost : Kept r (s.setLink { s.link with bus := .other }) :=
    h.shrinkLink (Nat.le_refl _) (Nat.le_refl _) (List.Sublist.refl _) (Nat.add_le_add_left (Nat.zero_le _) _)
  have hlost : Kept r (if others.isEmpty then s else s.setLink { s.link with bus := .other }) := by
    split
    · exact h
    · exact hlost
  unfold Machine.execBusContention
  dsimp only
  split
  · exact h.next
  · split
    · exact hlost.next
    · split
      · refine Kept.next (h.shrinkLink (Nat.le_refl _) (Nat.le_refl _) (List.Sublist.refl _) ?_)
        exact Nat.add_le_add_left (Nat.zero_le _) _
      · exact hlost.next

theorem Kept.execIdleGap (h : Kept r s) : KeptBy r (execIdleGap s) := by
  unfold Machine.execIdleGap
  split
  · exact Kept.next (h.shrinkLink (Nat.le_refl _) (Nat.le_refl _) (List.Sublist.refl _) (Nat.le_refl _))
  · exact h.next

/-- An outbound queue replaced by one that holds no further message. -/
theorem Kept.setOut {q : OutQ} (sel : OutSel) (h : Kept r s) (hq : q.q.Sublist (s.link.out sel).q) :
    Kept r (s.setLink (s.link.setOut sel q)) := by
  cases sel with
  | reply => exact h.shrinkLink (Nat.le_refl _) (Nat.le_refl _) (List.Sublist.refl _) (Nat.add_le_add_right hq.length_le _)
  | request => exact h.shrinkLink (Nat.le_refl _) (Nat.le_refl _) (List.Sublist.refl _) (Nat.le_refl _)
  | notice => exact h.shrinkLink (Nat.le_refl _) (Nat.le_refl _) hq (Nat.le_refl _)

theorem Kept.execRefuseBackoffExpiry (sel : OutSel) (h : Kept r s) : KeptBy r (execRefuseBackoffExpiry sel s) :=
  Kept.next (h.setOut sel (List.Sublist.refl _))

theorem Kept.setAnswer (a : Answer) (h : Kept r s) : Kept r (setAnswer a s) :=
  h.shrinkLink (Nat.le_refl _) (Nat.le_refl _) (List.Sublist.refl _) (Nat.le_refl _)

theorem headerState_failed (x : PeerState) : headerState .failed x = .failed := by cases x <;> rfl

theorem Kept.headerView (m : Msg) (h : Kept r s) : Kept r (headerView m s) :=
  (h.setView m.source _ fun _ hf => by simp [hf, headerState_failed]).causeView _

theorem headerView_link (m : Msg) (s : State) : (headerView m s).link = s.link := by simp [headerView]

theorem Kept.placeMsg (m : Msg) (h : Kept r s) (hroom : inboundFull m.kind s = false) : Kept r (placeMsg m s) := by
  have hload : ∀ v : Link, v.replyLoad = s.link.replyLoad → placesInUse s ≤ 8 → placesInUse (s.setLink v) ≤ 8 := by
    intro v hv _
    have := placesInUse_setLink s v
    omega
  unfold Machine.placeMsg
  unfold inboundFull at hroom
  split
  next hk =>
    refine h.setLink (by exact id) (fun _ => ?_) (by exact id) fun _ => hload _ rfl
    rw [if_pos hk] at hroom
    rw [List.length_append]
    exact Nat.lt_of_not_le (of_decide_eq_false hroom)
  next hk =>
    refine h.setLink (fun _ => ?_) (by exact id) (by exact id) fun _ => hload _ rfl
    rw [if_neg hk] at hroom
    rw [List.length_append]
    exact Nat.lt_of_not_le (of_decide_eq_false hroom)

theorem Kept.headerStep (m : Msg) (h : Kept r s) (hroom : inboundFull m.kind s = false) : Kept r (headerStep m s) := by
  unfold Machine.headerStep
  dsimp only
  split
  · exact h.placeMsg m hroom
  · split
    · exact h.queueNotice _
    · split
      · exact h
      · exact (h.headerView m).placeMsg m (by simpa only [inboundFull, headerView_link] using hroom)

theorem Kept.receive (bs : List Byte) (h : Kept r s) : Kept r (receive bs s) := by
  unfold Machine.receive
  split
  · exact h.setAnswer _
  · split
    · exact h.setAnswer _
    · exact h.setAnswer _
    · exact h.setAnswer _
    · split
      · exact h.setAnswer _
      next hroom => exact (h.setAnswer _).headerStep _ (Bool.not_eq_true _ ▸ hroom)

theorem Kept.slotDelivered (t : Nat) (h : Kept r s) : Kept r (slotDelivered t s) := by
  unfold Machine.slotDelivered
  dsimp only
  split
  · exact h.setSlot t (by rfl)
  · exact h

theorem Kept.opDisposed (m : OutMsg) (h : Kept r s) : Kept r (opDisposed m s) := by
  unfold Machine.opDisposed
  split
  · exact h
  · exact h.closeOp _

theorem Kept.delivered (sel : OutSel) (m : OutMsg) (h : Kept r s) : Kept r (delivered sel m s) := by
  have hdrop := h.setOut (q := (s.link.out sel).dropHead) sel (List.drop_sublist 1 _)
  unfold Machine.delivered
  dsimp only
  split
  · exact hdrop.slotDelivered _
  · exact hdrop.opDisposed m

theorem Kept.unanswered (sel : OutSel) (m : OutMsg) (h : Kept r s) : Kept r (unanswered sel m s) := by
  unfold Machine.unanswered
  split
  · exact h.delivered sel m
  · dsimp only
    split
    · exact ((h.setOut sel (List.drop_sublist 1 _)).opDisposed m).reportUnreachable _
    · exact h.setOut sel (List.Sublist.refl _)

theorem Kept.refused (sel : OutSel) (m : OutMsg) (h : Kept r s) : Kept r (refused sel m s) := by
  unfold Machine.refused
  dsimp only
  split
  · exact Kept.unanswered sel m (h.setOut sel (List.Sublist.refl _))
  · exact h.setOut sel (List.Sublist.refl _)

theorem Kept.setWindow (w : JoinWindow) (h : Kept r s) : Kept r (s.setMem { s.mem with window := w }) :=
  h.setMem rfl rfl fun _ _ hf => hf

theorem Kept.openWindow (m : Msg) (h : Kept r s) : Kept r (openWindow m s) := by
  unfold Machine.openWindow
  split
  · exact h.setWindow _
  · exact h

theorem Kept.decideIfDue (h : Kept r s) : Kept r (decideIfDue s) := by
  unfold Machine.decideIfDue
  split
  · exact h.joinDecision
  · exact h

theorem Kept.sendEnd (sel : OutSel) (accept refuse : Bool) (h : Kept r s) : Kept r (sendEnd sel accept refuse s) := by
  unfold Machine.sendEnd
  split
  · exact h
  next m _ _ =>
    have hopen := h.openWindow m.msg
    dsimp only
    refine Kept.settle (Kept.decideIfDue ?_)
    split
    · exact hopen.refused sel m
    · split
      · exact hopen.delivered sel m
      · exact hopen.unanswered sel m

theorem Kept.execAcceptancePhase (e : PhaseEnd) (h : Kept r s) : KeptBy r (execAcceptancePhase e s) := by
  unfold Machine.execAcceptancePhase
  dsimp only
  split
  · exact (h.freeBus.receive _).next
  · exact h.freeBus.next
  · split
    · exact h.freeBus.next
    · exact (h.freeBus.sendEnd _ _ _).next
  · exact h.next

theorem Kept.execHeldReplyQueued (h : Kept r s) : KeptBy r (execHeldReplyQueued s) := by
  unfold Machine.execHeldReplyQueued
  dsimp only
  split
  next m _ =>
    split
    next hfree =>
      have hleft : Kept r (s.setLink { s.link with
          waiters := s.link.waiters.eraseIdx (s.link.waiters.findIdx (· != .head)) }) :=
        h.shrinkLink (Nat.le_refl _) (Nat.le_refl _) (List.Sublist.refl _) (Nat.le_refl _)
      have hroom : placesInUse s < 8 := by
        rw [freePlaces_eq] at hfree
        omega
      have hpush := fun x => (hleft.filterDone m.msg).pushReply x fun _ => by rwa [placesInUse_filterDone]
      split
      · exact ((hleft.filterDone _).opDisposed m).settle.next
      · split
        · exact (hpush m).next
        · exact ((hpush _).opDisposed m).settle.next
    · exact h.next
  · exact h.next
  · exact h.next

/-! ### Slots and replies taken -/

theorem Kept.afterGrant (o : Owner) (h : Kept r s) : Kept r (afterGrant o s) := by
  cases o with
  | op st => exact h.askNext st
  | port _ | member _ | sweep | repair => exact h

theorem Kept.execSlotGrant (h : Kept r s) : KeptBy r (execSlotGrant s) := by
  unfold Machine.execSlotGrant
  split
  next a rest t _ _ =>
    have hgrant := (h.setAsks rest).grantSlot a t
    dsimp only
    refine (Kept.settle (Kept.afterGrant _ ?_)).next
    split
    · exact hgrant
    · exact hgrant.handOutcome t _ _
  · exact h.next

theorem Kept.execResponseTimerExpiry (tag : BitVec 3) (h : Kept r s) : KeptBy r (execResponseTimerExpiry tag s) := by
  unfold Machine.execResponseTimerExpiry
  dsimp only
  split
  · split
    · exact ((h.setSlot _ (by rfl)).reportUnreachable _).next
    · exact (h.queueCopy _).next
  · exact h.next

theorem Kept.execHeldTimerExpiry (tag : BitVec 3) (h : Kept r s) : KeptBy r (execHeldTimerExpiry tag s) := by
  unfold Machine.execHeldTimerExpiry
  dsimp only
  split
  · exact (h.queueCopy _).next
  · exact h.next

theorem Kept.execBackoffTimerExpiry (tag : BitVec 3) (h : Kept r s) : KeptBy r (execBackoffTimerExpiry tag s) := by
  unfold Machine.execBackoffTimerExpiry
  dsimp only
  split
  · split
    · exact (h.handOff _).next
    · exact (h.queueCopy _).next
  · exact h.next

theorem Kept.popInbox {m : Msg} {rest : List Msg} (h : Kept r s) (hbox : s.link.inbox = m :: rest) :
    Kept r (s.setLink { s.link with inbox := rest }) :=
  h.shrinkLink (Nat.le_refl _) (by simp [hbox]) (List.Sublist.refl _) (Nat.le_refl _)

theorem Kept.takeReply (k : Kind) {g : Nat → Msg → State → State} (h : Kept r s)
    (hg : ∀ {s} t m, Kept r s → Kept r (g t m s)) : Kept r (takeReply k g s) := by
  unfold Machine.takeReply
  split
  · exact h
  next m s' hbox =>
    have htaken : Kept r s' := by
      unfold inboxOf at hbox
      split at hbox
      · cases hbox
      next hq =>
        split at hbox
        · cases hbox
          exact h.popInbox hq
        · cases hbox
    split
    · exact hg _ _ htaken
    · exact htaken

theorem Kept.takeFinal (t : Nat) (m : Msg) (h : Kept r s) : Kept r (takeFinal t m s) := (h.finishSlot t _).settle

theorem Kept.takeNotReady (t : Nat) (m : Msg) (h : Kept r s) : Kept r (takeNotReady t m s) := (h.finishSlot t _).settle

theorem Kept.takeHold (t : Nat) (m : Msg) (h : Kept r s) : Kept r (takeHold t m s) :=
  (h.setSlot t (by rfl)).withdrawCopy t

theorem Kept.takeBusy (t : Nat) (m : Msg) (h : Kept r s) : Kept r (takeBusy t m s) := by
  unfold Machine.takeBusy
  dsimp only
  split <;> exact h.setSlot t (by rfl)

/-! ### Membership -/

theorem Kept.execHelloRsp (h : Kept r s) : KeptBy r (execHelloRsp s) := by
  unfold Machine.execHelloRsp
  split
  · exact h.next
  next hbox =>
    split
    · exact h.next
    · dsimp only
      split
      · exact (h.popInbox hbox).next
      · exact Kept.next ((h.popInbox hbox).setMem rfl rfl fun _ _ hf => hf)

theorem stateEntry_failed {v : ViewEntry} (m : Msg) (h : v.state = .failed) : stateEntry v m = v := by
  simp [stateEntry, h]

theorem Kept.execState (h : Kept r s) : KeptBy r (execState s) := by
  unfold Machine.execState
  split
  · exact h.next
  next m _ =>
    refine ((h.popInbound.setView m.source _ fun _ hf => ?_).causeView _).next
    have hv : (viewAt s m.source).state = .failed := by simpa [viewAt, popInbound] using hf
    rw [stateEntry_failed m hv, hv]

theorem Kept.execJoinWindowExpiry (h : Kept r s) : KeptBy r (execJoinWindowExpiry s) := by
  unfold Machine.execJoinWindowExpiry
  split
  · exact h.next
  · exact h.next
  · split
    · exact (h.setWindow _).next
    · exact h.joinDecision.settle.next

theorem placesInUse_of_headPlace (h : headPlace s = true) : placesInUse s < 8 := by
  have hrank : headRank s < freePlaces s := by simpa [headPlace] using h
  rw [freePlaces_eq] at hrank
  omega

theorem placesInUse_popInbound (s : State) : placesInUse (popInbound s) = placesInUse s := rfl

/-- The head is answered in its place as it leaves. -/
theorem Kept.answerPopped (m : Msg) (h : Kept r s) (hp : headPlace s = true) : Kept r (Machine.answerHead m (Machine.popInbound s)) :=
  h.popInbound.answerHead m fun _ => (placesInUse_of_headPlace hp : placesInUse s < 8)

theorem Kept.execJoiningNotReady (h : Kept r s) : KeptBy r (execJoiningNotReady s) := by
  unfold Machine.execJoiningNotReady
  split
  · exact h.next
  · split
    · split
      next hp => exact (h.answerPopped _ hp).next
      · exact h.waitHead.next
    · exact h.next

/-! ### The filter and the holder -/

theorem Kept.execFilterRepeat (h : Kept r s) : KeptBy r (execFilterRepeat s) := by
  unfold Machine.execFilterRepeat
  split
  · exact h.next
  · split
    · split
      · exact h.next
      · exact h.popInbound.next
      · split
        next hp => exact (h.answerPopped _ hp).next
        · exact h.waitHead.next
      · split
        next hp => exact (h.answerPopped _ hp).next
        · exact h.waitHead.next
    · exact h.next

theorem Kept.holderPop (who : Requester) (h : Kept r s) : Kept r (holderPop who s) := by
  unfold Machine.holderPop
  split
  · exact h.setHolderHandoffs _
  · exact h.popInbound

theorem placesInUse_holderPop (who : Requester) (s : State) : placesInUse (holderPop who s) = placesInUse s := by
  unfold holderPop
  split <;> rfl

theorem Kept.takeInFilter (k : Kind) (who : Requester) (h : Kept r s) : Kept r (takeInFilter k who s) := by
  cases who with
  | peer src tag seq => exact h.filterTake _
  | own _ | internalAudit | internalRebuild | internalList | nobody => exact h

theorem placesInUse_takeInFilter (k : Kind) (who : Requester) (s : State) :
    placesInUse (takeInFilter k who s) = placesInUse s := by cases who <;> rfl

/-- The holder's work changed: a peer's request takes a reserved place. -/
theorem placesInUse_setWork (s : State) (w : Option HolderWork) :
    placesInUse (s.setHolder { s.holder with work := w }) =
      s.link.replyLoad + match w with
        | some { who := .peer _ _ _, .. } => 1
        | _ => 0 := rfl

theorem placesInUse_idle (s : State) : placesInUse (s.setHolder { s.holder with work := none }) = s.link.replyLoad := rfl

theorem replyLoad_le (s : State) : s.link.replyLoad ≤ placesInUse s := Nat.le_add_right _ _

theorem Kept.holderBegin (who : Requester) (k : Kind) (f : Fields) (h : Kept r s)
    (hroom : ∀ src tag seq, who = .peer src tag seq → placesInUse s < 8) : Kept r (holderBegin who k f s) := by
  refine Kept.dueClaim _ _ (h.setHolder (by exact id) (by exact id) fun k => ?_)
  have hload := replyLoad_le s
  rw [placesInUse_setWork]
  split
  next hw =>
    cases hw
    have := hroom _ _ _ rfl
    omega
  next => omega

theorem holderRequest_peer {k : Kind} {direct : Bool} {via : Via} {src tag : Nat} {seq : Bool} {f : Fields}
    (h : holderRequest k direct via s = some (.peer src tag seq, f)) : via = .inbound := by
  cases via with
  | inbound => rfl
  | own =>
    simp only [holderRequest] at h
    repeat' split at h
    all_goals simp at h

theorem Kept.holderTake (k : Kind) (direct : Bool) (via : Via) (h : Kept r s) : Kept r (holderTake k direct via s) := by
  unfold Machine.holderTake
  split
  · exact h
  next who f hreq =>
    split
    · exact h.waitHead
    next hp =>
      have hroom : ∀ src tag seq, who = .peer src tag seq → placesInUse s < 8 := by
        rintro src tag seq rfl
        obtain rfl := holderRequest_peer hreq
        exact placesInUse_of_headPlace (by simpa using hp)
      split
      · exact (h.holderPop who).firstAnswer who _ fun src tag seq hw _ => by
          rw [placesInUse_holderPop]; exact hroom src tag seq hw
      · exact ((h.holderPop who).takeInFilter k who).holderBegin who k f fun src tag seq hw => by
          rw [placesInUse_takeInFilter, placesInUse_holderPop]; exact hroom src tag seq hw

theorem Kept.holderDone (reads : List BankWord) (h : Kept r s) : Kept r (holderDone reads s) := by
  unfold Machine.holderDone
  split
  · exact h
  next w hw =>
    have hidle : Kept r (s.setHolder { s.holder with work := none }) := by
      refine h.setHolder (by exact id) (by exact id) fun k => ?_
      have hload := replyLoad_le s
      rw [placesInUse_idle]
      omega
    have hanswer := hidle.firstAnswer w.who (holderAnswer w.kind w.f reads) fun src tag seq hwho hr => by
      have hplaces := h.places hr
      have hreserved : placesInUse s = s.link.replyLoad + 1 := by
        obtain ⟨who, k, f⟩ := w
        obtain rfl : who = .peer src tag seq := hwho
        simp [placesInUse, Link.replyLoad, hw]
      rw [placesInUse_idle]
      omega
    dsimp only
    split
    · exact hanswer.repairOffer _ _
    · exact hanswer

/-! ### The home -/

theorem Kept.homePop (who : Requester) (h : Kept r s) : Kept r (homePop who s) := by
  unfold Machine.homePop
  split
  · exact h.setHandoffs _
  · exact h.popInbound

theorem placesInUse_homePop (who : Requester) (s : State) : placesInUse (homePop who s) = placesInUse s := by
  unfold homePop
  split <;> rfl

theorem home_homePop (who : Requester) (s : State) : (homePop who s).home.pool = s.home.pool ∧
    (homePop who s).home.table = s.home.table := by
  unfold homePop
  split <;> exact ⟨rfl, rfl⟩

theorem home_takeInFilter (k : Kind) (who : Requester) (s : State) : (takeInFilter k who s).home = s.home := by
  cases who <;> rfl

/-- The requester can be answered in the state: a peer's answer has its place. -/
def AnswerRoom (who : Requester) (s : State) : Prop := ∀ src tag seq, who = .peer src tag seq → placesInUse s < 8

theorem Kept.answerRequest {who : Requester} (m : Msg) (h : Kept r s) (hroom : AnswerRoom who s) :
    Kept r (Machine.firstAnswer who m s) := h.firstAnswer who m fun src tag seq hw _ => hroom src tag seq hw

theorem AnswerRoom.of_eq {who : Requester} {t : State} (h : AnswerRoom who s) (e : placesInUse t = placesInUse s) :
    AnswerRoom who t := fun src tag seq hw => e ▸ h src tag seq hw

theorem Kept.turnAway (k : Kind) {who : Requester} (h : Kept r s) (hroom : AnswerRoom who s) :
    Kept r (turnAway k who s) := (h.homePop who).answerRequest _ (hroom.of_eq (placesInUse_homePop who s))

theorem Kept.refuseBusy {who : Requester} (h : Kept r s) (hroom : AnswerRoom who s) : Kept r (refuseBusy who s) :=
  h.countBusy.turnAway _ (hroom.of_eq rfl)

theorem Kept.answerLost (req rsp : Kind) {who : Requester} (h : Kept r s) (hroom : AnswerRoom who s) :
    Kept r (answerLost req rsp who s) :=
  ((h.homePop who).takeInFilter req who).answerRequest _
    (hroom.of_eq (by rw [placesInUse_takeInFilter, placesInUse_homePop]))

/-- A request not refused BUSY finds room. -/
theorem room_of_not_refusedBusy {st : Nat} (h : refusedBusy s st = false) :
    s.home.pool.length < 32 ∧ (s.home.hasEntry st = true ∨ s.home.table.length < 16) := by
  rw [← roomFor_iff, roomFor]
  unfold refusedBusy at h
  grind

/-- The request taken from its queue takes a place of the pool. -/
theorem Kept.takeRequest (k : Kind) (p : Place) (who : Requester) (h : Kept r s)
    (hroom : refusedBusy s p.stripe = false) : Kept r (Machine.takePlace p (Machine.takeInFilter k who (Machine.homePop who s))) := by
  obtain ⟨hpool, htable⟩ := room_of_not_refusedBusy hroom
  obtain ⟨epool, etable⟩ := home_homePop who s
  refine ((h.homePop who).takeInFilter k who).takePlace p ?_ ?_
  · rwa [home_takeInFilter, epool]
  · rwa [home_takeInFilter, Home.hasEntry, etable]

theorem placesInUse_parked (k : Kind) (p : Place) (s : State) :
    placesInUse (filterPark p.who true (takePlace p (takeInFilter k p.who (homePop p.who s)))) = placesInUse s := by
  obtain ⟨_, _, who, _⟩ := p
  cases who <;> rfl

theorem Kept.parkRequest (k : Kind) (p : Place) (h : Kept r s) (hbusy : refusedBusy s p.stripe = false)
    (hroom : AnswerRoom p.who s) : Kept r (parkRequest k p s) :=
  (((h.takeRequest k p p.who hbusy).filterPark p.who true).answerRequest _
    (hroom.of_eq (placesInUse_parked k p s))).settle

theorem homeRequest_peer {k : Kind} {via : Via} {src tag : Nat} {seq : Bool} {f : Fields}
    (h : homeRequest k via s = some (.peer src tag seq, f)) : via = .inbound := by
  cases via with
  | inbound => rfl
  | own =>
    simp only [homeRequest] at h
    repeat' split at h
    all_goals simp at h

/-- What is done in the head's place carries over where it does with room for the answer. -/
theorem Kept.inPlace {k : Kind} {via : Via} {who : Requester} {f : Fields} {g : State → State} (h : Kept r s)
    (hreq : homeRequest k via s = some (who, f)) (hg : AnswerRoom who s → Kept r (g s)) : Kept r (inPlace via g s) := by
  unfold Machine.inPlace
  split
  · exact h.waitHead
  next hp =>
    refine hg ?_
    rintro src tag seq rfl
    obtain rfl := homeRequest_peer hreq
    exact placesInUse_of_headPlace (by simpa using hp)

theorem Kept.issueMember (t : Nat) (p : Place) (h : Kept r s) : Kept r (issueMember t p s) := by
  unfold Machine.issueMember
  dsimp only
  split
  · exact h.grantSlot _ t
  · exact (h.grantSlot _ t).memberOutcome _ _ _ _

theorem Kept.homeWrite (via : Via) (h : Kept r s) : Kept r (homeWrite via s) := by
  unfold Machine.homeWrite
  split
  · exact h
  next who f hreq =>
    dsimp only
    split
    · exact h
    · split
      · exact h.inPlace hreq h.refuseBusy
      next hbusy =>
        have hbusy : refusedBusy s f.stripe = false := Bool.not_eq_true _ ▸ hbusy
        split
        · exact h.inPlace hreq (h.parkRequest _ (waitItem .write who f) hbusy)
        · split
          · split
            · exact h.inPlace hreq (h.answerLost _ _)
            · exact h.inPlace hreq (h.parkRequest _ (waitItem .degradedWrite who f) hbusy)
          · split
            next t _ _ =>
              exact ((h.takeRequest .write { waitItem .write who f with use := .member t } who hbusy).issueMember _ _).settle
            · exact h.inPlace hreq (h.parkRequest _ (waitItem .write who f) hbusy)

theorem Kept.execRecover (via : Via) (h : Kept r s) : KeptBy r (execRecover via s) := by
  unfold Machine.execRecover
  split
  · exact h.next
  next who f hreq =>
    refine (h.inPlace hreq fun hroom => ?_).next
    split
    · split
      · exact h.answerLost _ _ hroom
      · exact h.turnAway _ hroom
    · split
      · exact h.refuseBusy hroom
      next hbusy => exact h.parkRequest _ (waitItem .recover who f) (Bool.not_eq_true _ ▸ hbusy) hroom

theorem Kept.execRebuild (via : Via) (h : Kept r s) : KeptBy r (execRebuild via s) := by
  unfold Machine.execRebuild
  split
  · exact h.next
  next who f hreq =>
    refine (h.inPlace hreq fun hroom => ?_).next
    split
    · exact h.turnAway _ hroom
    · split
      · exact h.refuseBusy hroom
      next hbusy => exact h.parkRequest _ (waitItem .rebuild who f) (Bool.not_eq_true _ ▸ hbusy) hroom

theorem Kept.execExclusiveOpStart (h : Kept r s) : KeptBy r (execExclusiveOpStart s) := by
  unfold Machine.execExclusiveOpStart
  split
  · exact h.next
  · split
    · exact (h.startOp _ _).settle.next
    · exact h.next

theorem changeFirst_length (p : Place → Bool) (g : Place → Place) (l : List Place) :
    (changeFirst p g l).length = l.length := by
  induction l with
  | nil => rfl
  | cons x l ih =>
    simp only [changeFirst]
    split
    · rfl
    · exact congrArg (· + 1) ih

theorem Kept.releaseWriteOf (t : Nat) (p : Place) (h : Kept r s) : Kept r (releaseWriteOf t p s) := by
  unfold Machine.releaseWriteOf
  dsimp only
  split
  · exact ((h.movePlace _ _).filterPark _ _).issueMember t _
  · split
    · exact (h.filterPark _ _).settleWrite _ _ _
    · exact h.setPool (Nat.le_of_eq (changeFirst_length _ _ _))

theorem Kept.execMemberWriteRelease (h : Kept r s) : KeptBy r (execMemberWriteRelease s) := by
  unfold Machine.execMemberWriteRelease
  split
  · exact h.next
  · split
    · exact (h.releaseWriteOf _ _).settle.next
    · exact h.next

/-! ### The bank and the sweep unit -/

theorem Kept.execBankGrant (h : Kept r s) : KeptBy r (execBankGrant s) := by
  unfold Machine.execBankGrant
  split
  next who _ _ =>
    split
    · exact h.next
    · exact (h.setBank (by cases who <;> rfl)).next
  · exact h.next

theorem Kept.claimDone (w : ClaimFor) (reads : List BankWord) (h : Kept r s) : Kept r (claimDone w reads s) := by
  cases w with
  | holder => exact h.holderDone reads
  | delta st o => exact h.deltaApplied st o _
  | parityRead st o => exact h.opParityRead st o reads
  | parityWrite st => exact h.opParityWritten st
  | fill => exact h.fillAdvance
  | unitStore => exact h.rebuildAdvance

theorem Kept.execAuditPeriodExpiry (h : Kept r s) : KeptBy r (execAuditPeriodExpiry s) := by
  unfold Machine.execAuditPeriodExpiry
  split
  · exact h.auditAttempt.settle.next
  · exact h.next

theorem Kept.execUrgentAuditAdmission (h : Kept r s) : KeptBy r (execUrgentAuditAdmission s) := by
  unfold Machine.execUrgentAuditAdmission
  split
  next hdue => exact (h.admitAudit true (Bool.and_eq_true_iff.1 hdue).2).settle.next
  · exact h.next

theorem Kept.execOwnRecomputeAdmission (h : Kept r s) : KeptBy r (execOwnRecomputeAdmission s) := by
  unfold Machine.execOwnRecomputeAdmission
  split
  · exact (h.offerRecompute _).settle.next
  · exact h.next

theorem Kept.execRebuildPauseExpiry (h : Kept r s) : KeptBy r (execRebuildPauseExpiry s) := by
  unfold Machine.execRebuildPauseExpiry
  split
  · exact (h.askRebuild _).next
  · exact h.next

end Sys2Proof.Machine
end

section
/-! PROOFS. What one command can do, said once (`exec_effect`), and the statements on every command that follow from it. -/

namespace Sys2Proof.Machine

variable {r s t : State}

/-! ### Claims carried out -/

theorem Carried.runClaim (c : Claim) (h : Carried r s) : Carried r (runClaim c s) :=
  (h.setBank _).trans (Kept.countLost (claimVoids c) (.refl _)).toCarried

theorem Carried.finishClaim (h : Carried r s) : Carried r (finishClaim s) := by
  unfold Machine.finishClaim
  split
  · exact h
  · exact h.runClaim _

/-! ### Expulsion -/

/-- The station expelled, before its start of joining (R62). -/
def expelled (s : State) : State :=
  let s := causeView (viewHeld (finishClaim s)) (finishClaim s)
  let s := expelEntries s
  let s := s.setMem { s.mem with fillProgress := 0 }
  let s := s.setTu { slots := s.tu.slots.map fun x => { x.stopped with state := .free, owner := none }, asks := [] }
  let s := (((s.setFilter []).setHome {}).setHolder {}).setSweep { auditPtr := s.own }
  let s := s.setLink (expelLink s.link)
  s.setBank (expelBank s.bank)

theorem expel_eq (s : State) : expel s = startJoining (expelMode s) (expelled s) := rfl

theorem Kept.expelEntry (e : LocalEntry) (h : Kept r s) : Kept r (expelEntry s e) := by
  unfold Machine.expelEntry
  split
  · exact h.writeFault _ _
  · exact h.completeRead _ _

theorem Kept.expelEntries (h : Kept r s) : Kept r (expelEntries s) := by
  refine (Kept.foldl (fun e k => k.expelEntry e) _ h).setPort (Nat.le_trans (List.length_filter_le _ _)) ?_
  exact Nat.le_trans List.filter_sublist.countP_le

theorem Kept.expelTu (h : Kept r s) : Kept r
    (s.setTu { slots := s.tu.slots.map fun x => { x.stopped with state := .free, owner := none }, asks := [] }) := by
  refine h.setTu (by simp) fun k x hx => ?_
  obtain ⟨y, hy, rfl⟩ := List.mem_map.1 hx
  exact k y hy

theorem Kept.expelLink (h : Kept r s) : Kept r (s.setLink (expelLink s.link)) := by
  refine h.shrinkLink (Nat.le_refl _) (Nat.le_refl _) (List.nil_sublist _) ?_
  have h1 := replyLoad_detach_le s.link.bus .request
  have h2 := replyLoad_detach_le (s.link.bus.detach .request) .notice
  simp [Link.replyLoad, Machine.expelLink] at h1 h2 ⊢
  omega

theorem Kept.clearBlocks (p : Nat) (h : Kept r s) :
    Kept r ((((s.setFilter []).setHome {}).setHolder {}).setSweep { auditPtr := p }) := by
  have hfilter : Kept r (s.setFilter []) := h.setFilter fun _ => .nil
  have hhome : Kept r ((s.setFilter []).setHome {}) :=
    hfilter.setHome (fun _ => rfl) (fun _ => Nat.zero_le _) (fun _ => Nat.zero_le _) fun _ => .nil
  refine Kept.setSweep _ (hhome.setHolder (fun _ => Nat.zero_le _) (fun _ => List.nodup_nil) fun k => ?_)
  exact Nat.le_trans (Nat.add_le_add_left (Nat.zero_le _) _) k

theorem expelled_carried (s : State) : Carried s (expelled s) := by
  have hentries := (Kept.causeView (viewHeld (finishClaim s)) (.refl (finishClaim s))).expelEntries
  have hbase : Kept (finishClaim s) (expelled s) := by
    refine Kept.setBank rfl (Kept.expelLink (Kept.clearBlocks _ (Kept.expelTu (Kept.setFillProgress 0 ?_))))
    exact hentries
  exact (Carried.refl s).finishClaim.trans hbase.toCarried

/-! ### The start of joining -/

/-- The start of joining, before its HELLO is queued (R53). -/
def joiner (mode : JoinMode) (s : State) : Membership :=
  { s.mem with
    ownState := .joining, ownInc := s.mem.ownInc + 1, joinMode := mode
    views := setAt (List.replicate 8 {}) s.own { state := .joining, inc := s.mem.ownInc + 1, mode := mode }
    working := [], window := .closed }

theorem startJoining_eq (mode : JoinMode) (s : State) :
    startJoining mode s = queueNotice (helloNotice mode) (s.setMem (joiner mode s)) := rfl

theorem startJoining_mem (mode : JoinMode) (s : State) : (startJoining mode s).mem = joiner mode s := by
  simp [startJoining_eq]

/-- What a start of joining keeps of a sound state: all but the membership, which it makes anew. -/
structure Rejoined (s t : State) : Prop where
  counters : s.CountersFit → t.CountersFit ∧ s.counters.Le t.counters
  sized : s.Sized → t.Sized
  bounded : s.Bounded → t.Bounded
  keyed : s.Keyed → t.Keyed
  places : placesInUse s ≤ 8 → placesInUse t ≤ 8

theorem Carried.rejoined (h : Carried s t) : Rejoined s t := ⟨h.counters, h.sized, h.bounded, h.keyed, h.places⟩

theorem Rejoined.trans {u : State} (h : Rejoined s t) (k : Rejoined t u) : Rejoined s u where
  counters hs := ⟨(k.counters (h.counters hs).1).1, (h.counters hs).2.trans (k.counters (h.counters hs).1).2⟩
  sized hs := k.sized (h.sized hs)
  bounded hs := k.bounded (h.bounded hs)
  keyed hs := k.keyed (h.keyed hs)
  places hs := k.places (h.places hs)

theorem startJoining_rejoined (mode : JoinMode) (s : State) : Rejoined s (startJoining mode s) := by
  have hmem : Rejoined s (s.setMem (joiner mode s)) :=
    ⟨fun k => ⟨k.of_eq rfl, .refl _⟩, fun k => ⟨by simp [joiner, setAt], k.slots, k.seqs, k.accs⟩,
      fun k => k.of_eq rfl rfl rfl rfl, fun k => k.of_eq rfl rfl rfl rfl, id⟩
  exact hmem.trans (Kept.queueNotice (helloNotice mode) (.refl _)).toCarried.rejoined

theorem expel_rejoined (s : State) : Rejoined s (expel s) :=
  (expelled_carried s).rejoined.trans (startJoining_rejoined _ _)

/-! ### The host's writes to the enables -/

/-- An access carries over, or it writes the enables and carries over but for them. -/
theorem present_effect (a : Access) (s : State) :
    Kept s (present a s) ∨ (a.toEnables s.straps ∧ ∃ v, Kept (s.setEnables v) (present a s)) := by
  by_cases hen : a.toEnables s.straps
  · obtain ⟨hw, hwindow, hword⟩ := hen
    have hheld := (Kept.refl s).holdAccess (some a)
    by_cases hidle : s.port.access.isSome = true
    · exact .inl (by simpa [present, hidle] using Kept.refl s)
    · by_cases hout : s.inReset = true ∨ a.lanes = 0
      · refine .inl ?_
        have hans : present a s = answerAccess a 0 s.inReset id (s.setPort { s.port with access := some a }) := by
          rcases hout with hr | hl
          · simp [present, hidle, hr]
          · cases hr : s.inReset <;> simp [present, hidle, hl, hr]
        exact hans ▸ hheld.answerAccess a _ _ fun _ => hheld
      · refine .inr ⟨⟨hw, hwindow, hword⟩, causesOf (mergeLanes a.lanes a.data (causesWord s.enables)), ?_⟩
        have hans : present a s = releaseWrite (Machine.writeEnables a.lanes a.data (s.setPort { s.port with access := some a })) := by
          have hlanes : a.lanes ≠ 0#4 := (not_or.1 hout).2
          simp [present, hidle, (not_or.1 hout).1, hlanes, hwindow, hword, answerAccess, hw, windowWrite]
        rw [hans]
        exact ((Kept.refl (s.setEnables _)).holdAccess (some a)).releaseWrite
  · exact .inl ((Kept.refl s).present a hen)

/-! ### One command -/

/-- What one command can do to the station. -/
inductive Effect (c : Instr) (s t : State) : Prop
  /-- everything is carried over -/
  | kept (h : Kept s t)
  /-- a reset -/
  | reset (hc : isReset c = true)
  /-- the FAIL that expels the station -/
  | expelled (hc : c = .fail) (ht : t = expel (popInbound s))
  /-- a HELLO makes its sender's entry JOINING; all else is carried over from there -/
  | joined (m : Msg) (v : ViewEntry) (hc : c = .hello) (hm : inboundOf .hello s = some m)
      (h : Kept (setView m.source v (popInbound s)) t)
  /-- the claim in progress is carried out; all else is carried over from there -/
  | claimed (b : BusyClaim) (hc : c = .bankClaimCompletion) (hb : s.bank.busy = some b) (h : Kept (runClaim b.claim s) t)
  /-- the enables are written; all else is carried over -/
  | enabled (v : Causes) (hc : WellFormed c = true → ∃ l d, c = .enablesWrite l d) (h : Kept (s.setEnables v) t)

theorem Effect.of_present {c : Instr} {a : Access} (ho : (.next (present a s) : Host.Outcome State Fault Refusal) = .next t)
    (hc : a.toEnables s.straps → WellFormed c = true → ∃ l d, c = .enablesWrite l d) : Effect c s t := by
  cases ho
  rcases present_effect a s with h | ⟨hen, v, h⟩
  · exact .kept h
  · exact .enabled v (hc hen) h

/-- An access of the host in the window is not a well-formed HOST_WRITE. -/
theorem windowIndex_of_window {p : StrapPins} {addr : BitVec 25} (h : classOf p addr.toNat = .window) :
    windowIndex addr.toNat ≠ none := by
  have hlow := (classOf_eq_iff p addr.toNat).1.1 h
  have := addr.isLt
  rw [windowIndex, if_pos ⟨(hlow : Config.windowBase ≤ _), by omega⟩]
  exact Option.some_ne_none _

theorem word_windowAddr (i : BitVec 6) : ((windowAddr i).toNat - Config.windowBase) / 4 = i.toNat := by
  have := i.isLt
  simp only [windowAddr, BitVec.toNat_ofNat, Config.windowBase]
  omega

/-- A withdrawal, and whatever keeps the link and the holder, takes no reply place. -/
theorem placesInUse_of_link (hl : t.link = s.link) (hh : t.holder = s.holder) : placesInUse t = placesInUse s := by
  simp only [placesInUse, hl, hh]

theorem placesInUse_withdraw_le (sel : OutSel) (p : OutMsg → Bool) (s : State) :
    placesInUse (withdraw sel p s) ≤ placesInUse s := by
  have hload := replyLoad_withdraw_le sel p s
  have hset := placesInUse_setLink s (withdraw sel p s).link
  rw [← withdraw_eq] at hset
  omega

theorem placesInUse_endSlot_le (t : Nat) (s : State) : placesInUse (endSlot t s) ≤ placesInUse s :=
  placesInUse_withdraw_le _ _ (setSlot t _ s)

theorem placesInUse_endSlots_le (l : List (Nat × Slot)) (s : State) :
    placesInUse (l.foldl (fun s e => endSlot e.1 s) s) ≤ placesInUse s := by
  induction l generalizing s with
  | nil => exact Nat.le_refl _
  | cons e l ih => exact Nat.le_trans (ih _) (placesInUse_endSlot_le e.1 s)

theorem placesInUse_dropReplies_le (j : Nat) (s : State) : placesInUse (dropReplies j s) ≤ placesInUse s :=
  placesInUse_withdraw_le _ _ s

/-- The change of a view entry takes no reply place. -/
theorem placesInUse_viewDown_le (j : Nat) (v : ViewEntry) (s : State) : placesInUse (viewDown j v s).1 ≤ placesInUse s := by
  have hended (l : List (Nat × Slot)) (u : State) : placesInUse
      (causeView ((viewAt s j).state != v.state) (dropInbound j (
        (loseAtHome j (l.foldl (fun s e => endSlot e.1 s) u)).setFilter
          ((loseAtHome j (l.foldl (fun s e => endSlot e.1 s) u)).filter.filter fun e => e.src != j)))) ≤ placesInUse u := by
    refine Nat.le_trans (Nat.le_of_eq ?_) (placesInUse_endSlots_le l u)
    rw [placesInUse_of_link (causeView_keeps ..).2.1 (by simp)]
    change placesInUse (loseAtHome j (l.foldl (fun s e => endSlot e.1 s) u)) = _
    exact placesInUse_of_link (by simp) (by simp)
  have hreplies := placesInUse_dropReplies_le j (setView j v s)
  have hurgent (u : State) : placesInUse (withdrawUrgent u) = placesInUse u := placesInUse_of_link (by simp) (by simp)
  unfold viewDown
  dsimp only
  split
  · exact Nat.le_trans (Nat.le_of_eq (hurgent _)) (Nat.le_trans (hended _ _) hreplies)
  · exact Nat.le_trans (hended _ _) hreplies

theorem Effect.of_hello (ho : execHello s = .next t) : Effect .hello s t := by
  unfold execHello at ho
  split at ho
  · exact .kept ((Kept.next (.refl s)).kept ho)
  next m hm =>
    split at ho
    · exact .kept ((Kept.next (Kept.waitHead (.refl s))).kept ho)
    next hp =>
      have hplace : headPlace s = true := by simpa using hp
      have hroom : placesInUse s < 8 := placesInUse_of_headPlace hplace
      let v : ViewEntry := { state := .joining, inc := m.sInc, mode := m.mode }
      have hdown := placesInUse_viewDown_le m.source v (popInbound s)
      rw [placesInUse_popInbound] at hdown
      cases ho
      refine .joined m v rfl hm (Kept.settle (Kept.handEnded _ ?_))
      exact (Kept.viewDown (.refl _)).pushReply _ fun _ => Nat.lt_of_le_of_lt hdown hroom

theorem head_of_inboundOf {k : Kind} {m : Msg} (h : inboundOf k s = some m) :
    (∃ rest, s.link.inbound = m :: rest) ∧ m.kind = k := by
  unfold inboundOf at h
  split at h
  · cases hq : s.link.inbound with
    | nil => simp [hq] at h
    | cons x rest =>
      have hx : x.kind = k ∧ x = m := by simpa [hq] using h
      exact ⟨⟨rest, by rw [hx.2]⟩, hx.2 ▸ hx.1⟩
  · cases h

theorem Effect.of_fail (ho : execFail s = .next t) : Effect .fail s t := by
  unfold execFail at ho
  split at ho
  · exact .kept ((Kept.next (.refl s)).kept ho)
  next m hm =>
    have hpop := Kept.popInbound (.refl s)
    dsimp only at ho
    split at ho
    · split at ho
      · cases ho
        exact .expelled rfl rfl
      · exact .kept (hpop.next.kept ho)
    · split at ho
      · exact .kept (hpop.next.kept ho)
      · exact .kept (hpop.next.kept ho)
      all_goals
        split at ho
        · exact .kept ((((hpop.setView m.target _ fun _ _ => by rfl).viewDown).handEnded _).settle.next.kept ho)
        · exact .kept (hpop.next.kept ho)

theorem Effect.of_claim (ho : execBankClaimCompletion s = .next t) : Effect .bankClaimCompletion s t := by
  unfold execBankClaimCompletion at ho
  split at ho
  · exact .kept ((Kept.next (.refl s)).kept ho)
  next b hb =>
    split at ho
    · cases ho
    · cases ho
      exact .claimed b rfl hb ((Kept.refl _).claimDone _ _).settle

/-- The commands that do more than carry over: the resets, HELLO, FAIL, the completion of a claim, and an access of the
host, which alone can write the enables. -/
inductive Special (c : Instr) (s : State) : Prop
  | reset (hc : isReset c = true)
  | hello (hc : c = .hello)
  | fail (hc : c = .fail)
  | claim (hc : c = .bankClaimCompletion)
  | access (a : Access) (ho : exec c s = .next (present a s))
      (hc : a.toEnables s.straps → WellFormed c = true → ∃ l d, c = .enablesWrite l d)

/-- Every other command completes and carries everything over. -/
theorem exec_keeps (c : Instr) (s : State) : KeptBy s (exec c s) ∨ Special c s := by
  have hs := Kept.refl s
  cases c with
  | powerOnReset | resetnAsserted _ | resetRelease _ => exact .inr (.reset rfl)
  | hostRead addr lanes => exact .inr (.access _ rfl fun h => absurd h.1 Bool.false_ne_true)
  | hostWrite addr lanes data =>
    refine .inr (.access _ rfl fun h hwf => ?_)
    exact absurd (Option.isNone_iff_eq_none.1 hwf) (windowIndex_of_window h.2.1)
  | causeFlagWrite lanes data =>
    refine .inr (.access _ rfl fun h => ?_)
    exact absurd ((word_windowAddr 20).symm.trans h.2.2) (by decide)
  | enablesWrite lanes data => exact .inr (.access _ rfl fun _ _ => ⟨lanes, data, rfl⟩)
  | windowWriteOther index lanes data =>
    refine .inr (.access _ rfl fun h hwf => ?_)
    have hi : index = 21 := BitVec.eq_of_toNat_eq ((word_windowAddr index).symm.trans h.2.2)
    simp [WellFormed, hi] at hwf
  | stalledAccessTaken => exact .inl hs.execStalledAccessTaken
  | entryStart => exact .inl hs.execEntryStart
  | busContention others => exact .inl (hs.execBusContention others)
  | acceptancePhase e => exact .inl (hs.execAcceptancePhase e)
  | refuseBackoffExpiry q => exact .inl (hs.execRefuseBackoffExpiry q)
  | idleGap => exact .inl hs.execIdleGap
  | slotGrant => exact .inl hs.execSlotGrant
  | responseTimerExpiry tag => exact .inl (hs.execResponseTimerExpiry tag)
  | heldTimerExpiry tag => exact .inl (hs.execHeldTimerExpiry tag)
  | backoffTimerExpiry tag => exact .inl (hs.execBackoffTimerExpiry tag)
  | hello => exact .inr (.hello rfl)
  | helloRsp => exact .inl hs.execHelloRsp
  | state => exact .inl hs.execState
  | fail => exact .inr (.fail rfl)
  | joinWindowExpiry => exact .inl hs.execJoinWindowExpiry
  | joiningNotReady => exact .inl hs.execJoiningNotReady
  | filterRepeat => exact .inl hs.execFilterRepeat
  | read via | update via | gather via | store via | directWrite via | fold via =>
    exact .inl (hs.holderTake _ _ via).next
  | write via => exact .inl (hs.homeWrite via).next
  | recover via => exact .inl (hs.execRecover via)
  | rebuild via => exact .inl (hs.execRebuild via)
  | readRsp | writeRsp | delta | recoverRsp | gatherRsp | storeRsp | foldRsp | rebuildRsp =>
    exact .inl (hs.takeReply _ Kept.takeFinal).next
  | hold => exact .inl (hs.takeReply _ Kept.takeHold).next
  | busy => exact .inl (hs.takeReply _ Kept.takeBusy).next
  | notReady => exact .inl (hs.takeReply _ Kept.takeNotReady).next
  | bankGrant => exact .inl hs.execBankGrant
  | bankClaimCompletion => exact .inr (.claim rfl)
  | exclusiveOpStart => exact .inl hs.execExclusiveOpStart
  | memberWriteRelease => exact .inl hs.execMemberWriteRelease
  | heldReplyQueued => exact .inl hs.execHeldReplyQueued
  | auditPeriodExpiry => exact .inl hs.execAuditPeriodExpiry
  | urgentAuditAdmission => exact .inl hs.execUrgentAuditAdmission
  | ownRecomputeAdmission => exact .inl hs.execOwnRecomputeAdmission
  | rebuildPauseExpiry => exact .inl hs.execRebuildPauseExpiry
  | lreqnRelease => exact .inl hs.execLreqnRelease

/-- Each command has one of the effects above. -/
theorem exec_effect {c : Instr} (ho : exec c s = .next t) : Effect c s t := by
  rcases exec_keeps c s with h | h
  · exact .kept (h.kept ho)
  · cases h with
    | reset hc => exact .reset hc
    | hello hc =>
      subst hc
      exact .of_hello ho
    | fail hc =>
      subst hc
      exact .of_fail ho
    | claim hc =>
      subst hc
      exact .of_claim ho
    | access a ha hc => exact Effect.of_present (ha.symm.trans ho) hc

end Sys2Proof.Machine
end

section
/-! PROOFS. The statements on every command and every step, each read off the effects a command can have
(`exec_effect`). -/

namespace Sys2Proof.Machine

variable {s t : State}

/-! ### The commands and the resets -/

/-- Settles O1, by the definition of a step. -/
theorem stepRunsTheFrontCommand : Obligations.StepRunsTheFrontCommand :=
  ⟨fun _ _ _ h => by rw [step, h], fun _ h => by rw [step, h]⟩

/-- Settles O7, by the reset values. -/
theorem resetIsSound : Obligations.ResetIsSound := by
  refine ⟨⟨?_, ?_, ?_, ?_, reset_bank_wf⟩, rfl⟩
  · constructor <;> decide
  · constructor <;> simp [State.reset]
  · constructor <;> decide
  · constructor <;> decide

theorem isReset_cases {c : Instr} (h : isReset c = true) :
    c = .powerOnReset ∨ (∃ n, c = .resetnAsserted n) ∨ ∃ pins, c = .resetRelease pins := by
  cases c <;> simp_all [isReset]


/-- A reset leaves the station as after power-on, its bank, incarnation and straps, and the host's access, apart. -/
structure AsReset (s t : State) : Prop where
  views : t.mem.views.length = 8
  link : ∃ b, t.link = { bus := cutBus b }
  tu : t.tu = {}
  filter : t.filter = []
  holder : t.holder = {}
  home : t.home = {}
  entries : t.port.entries = []
  counters : t.counters = {}
  enables : t.enables = {}
  straps : t.straps = s.straps
  pending : t.pending = s.pending

theorem powerOn_asReset (h : execPowerOnReset s = .next t) : AsReset s t ∧ t.bank.words = s.bank.words ∧ t.mem = {} := by
  cases h
  exact ⟨⟨rfl, ⟨_, rfl⟩, rfl, rfl, rfl, rfl, rfl, rfl, rfl, rfl, rfl⟩, rfl, rfl⟩

theorem resetAccess_entries (p : Port) : (resetAccess p).entries = [] := by
  unfold resetAccess
  dsimp only
  split
  · rfl
  · split <;> rfl

theorem resetn_asReset {n : Nat} (h : execResetnAsserted n s = .next t) :
    AsReset s t ∧ t.bank.words = cutClaim s.bank n ∧ t.mem = { ownInc := s.mem.ownInc } := by
  cases h
  exact ⟨⟨rfl, ⟨_, rfl⟩, rfl, rfl, rfl, rfl, resetAccess_entries s.port, rfl, rfl, rfl, rfl⟩, rfl, rfl⟩

theorem cutBus_detached (b : Bus) (sel : OutSel) : (cutBus b).detachedFrom sel = false := by cases b <;> rfl

theorem AsReset.sound (h : AsReset s t) (hb : Memory.wf t.bank.words = true) : t.Sound := by
  obtain ⟨b, hlink⟩ := h.link
  refine ⟨⟨?_, ?_, ?_, ?_, ?_, ?_, ?_⟩, ⟨?_, ?_, ?_, ?_⟩, ⟨?_, ?_, ?_, ?_, ?_, ?_⟩, ⟨h.views, ?_, ?_, ?_⟩, hb⟩
  all_goals simp [hlink, h.tu, h.filter, h.holder, h.home, h.entries, h.counters]

theorem AsReset.places (h : AsReset s t) : placesInUse t = 0 := by
  obtain ⟨b, hlink⟩ := h.link
  simp [placesInUse, hlink, h.holder, cutBus_detached]

/-- The reset release samples the straps and takes the station to INERT or to its start of joining (R2). -/
theorem release_cases {pins : StrapPins} (h : execResetRelease pins s = .next t) :
    t = s ∨ (s.inReset = true ∧ t.straps = pins ∧ ∃ u : State, Rejoined s u ∧
      u.straps = pins ∧ u.fixed.2.2 = s.fixed.2.2 ∧ u.mem = s.mem ∧
      (t = startJoining (smDecode pins.sm) u ∨ t = u.setMem { u.mem with ownState := .inert })) := by
  unfold execResetRelease at h
  split at h
  · cases h
    exact .inl rfl
  next hr =>
    dsimp only at h
    let u : State := ({ s with straps := pins, inReset := false } : State).setSweep
      { s.sweep with auditPtr := ({ s with straps := pins, inReset := false } : State).own }
    have hu : Rejoined s u := ⟨fun k => ⟨k.of_eq rfl, .refl _⟩, fun k => k.of_eq rfl rfl rfl,
      fun k => k.of_eq rfl rfl rfl rfl, fun k => k.of_eq rfl rfl rfl rfl, id⟩
    refine .inr ⟨by simpa using hr, ?_, u, hu, rfl, rfl, rfl, ?_⟩
    · split at h
      · cases h
        exact straps_of_fixed (startJoining_fixed _ u)
      · cases h
        rfl
    · split at h
      · cases h
        exact .inl rfl
      · cases h
        exact .inr rfl

theorem inert_rejoined (s : State) : Rejoined s (s.setMem { s.mem with ownState := .inert }) :=
  ⟨fun k => ⟨k.of_eq rfl, .refl _⟩, fun k => ⟨k.views, k.slots, k.seqs, k.accs⟩, fun k => k.of_eq rfl rfl rfl rfl,
    fun k => k.of_eq rfl rfl rfl rfl, id⟩

theorem release_rejoined {pins : StrapPins} (h : execResetRelease pins s = .next t) : Rejoined s t := by
  rcases release_cases h with rfl | ⟨-, -, u, hu, -, -, -, rfl | rfl⟩
  · exact (Carried.refl _).rejoined
  · exact hu.trans (startJoining_rejoined _ u)
  · exact hu.trans (inert_rejoined u)

theorem release_fixed {pins : StrapPins} (h : execResetRelease pins s = .next t) : t.fixed.2.2 = s.fixed.2.2 := by
  rcases release_cases h with rfl | ⟨-, -, u, -, -, hf, -, rfl | rfl⟩
  · rfl
  · rw [startJoining_fixed, hf]
  · rw [State.setMem_fixed, hf]

theorem release_inc {pins : StrapPins} (h : execResetRelease pins s = .next t) :
    t.mem.ownInc = s.mem.ownInc ∨ t.mem.ownInc = s.mem.ownInc + 1 := by
  rcases release_cases h with rfl | ⟨-, -, u, -, -, -, hm, rfl | rfl⟩
  · exact .inl rfl
  · exact .inr (by rw [startJoining_mem]; exact congrArg (fun m => m.ownInc + 1) hm)
  · exact .inl (show u.mem.ownInc = _ from congrArg Membership.ownInc hm)

/-! ### Expulsion -/

theorem expel_inc (s : State) : (expel s).mem.ownInc = s.mem.ownInc + 1 := by
  rw [expel_eq, startJoining_mem]
  exact congrArg (· + 1) (expelled_carried s).inc

theorem expel_ownState (s : State) : (expel s).mem.ownState = .joining := by
  rw [expel_eq, startJoining_mem]
  rfl

theorem finishClaim_fixed (s : State) : (finishClaim s).straps = s.straps ∧ (finishClaim s).enables = s.enables ∧
    (finishClaim s).pending = s.pending := by
  unfold finishClaim
  split <;> exact ⟨rfl, rfl, rfl⟩

theorem expel_records (s : State) : (expel s).straps = s.straps ∧ (expel s).enables = s.enables ∧
    (expel s).pending = s.pending ∧ (expel s).bank.words = (finishClaim s).bank.words := by
  obtain ⟨h1, h2, h3⟩ := finishClaim_fixed s
  have h := expel_fixed s
  exact ⟨(congrArg (fun x => x.1) h).trans h1, (congrArg (fun x => x.2.2.1) h).trans h2,
    (congrArg (fun x => x.2.2.2.1) h).trans h3, congrArg (fun x => x.2.2.2.2) h⟩

/-! ### The bank's words -/

/-- A word in one of the forms written: good in all four lanes, or void (R11). -/
def Formed (w : BankWord) : Prop := isGood w = true ∨ w = voidWord

theorem isGood_goodWord (w : Word) : isGood (goodWord w) = true := by
  simp only [isGood, goodIn, laneGood, goodWord, parityOf, BitVec.getLsbD_append, BitVec.getLsbD_ofBool]
  simp

theorem formed_formWord (w : Option Word) : Formed (formWord w) := by
  cases w with
  | none => exact .inr rfl
  | some w => exact .inl (isGood_goodWord w)

theorem formed_numbered (ws : List (Option Word)) (i : Nat) : ∀ e ∈ numbered i ws, Formed e.2 := by
  induction ws generalizing i with
  | nil => simp [numbered]
  | cons w ws ih =>
    intro e he
    rcases List.mem_cons.1 he with rfl | he
    · exact formed_formWord w
    · exact ih (i + 1) e he

theorem formed_mergeDecision {m : Merge} {old w : BankWord} (h : mergeDecision m old = some w) : Formed w := by
  have hgood (b : Bool) (v : Word) (h : (if b then some (goodWord v) else none) = some w) : Formed w := by
    split at h
    · cases h
      exact .inl (isGood_goodWord v)
    · cases h
  cases m with
  | update l v => exact hgood _ _ h
  | direct l v => exact hgood _ _ h
  | delta d => exact hgood _ _ h

theorem formed_claimWrites (m : List (Nat × BankWord)) (c : Claim) : ∀ e ∈ claimWrites m c, Formed e.2 := by
  unfold claimWrites
  split
  · simp
  · exact formed_numbered _ _
  · simp
  · exact formed_numbered _ _
  · split
    · simp
    next w hw =>
      intro e he
      obtain rfl := List.mem_singleton.1 he
      exact formed_mergeDecision hw

theorem formed_cutWrites (m : List (Nat × BankWord)) (c : Claim) (n : Nat) : ∀ e ∈ cutWrites m c n, Formed e.2 := by
  unfold cutWrites
  split
  · simp
  all_goals exact fun e he => formed_claimWrites m c e (List.mem_of_mem_take he)

/-- After words in the forms written, every bank word is as it was or in one of the forms. -/
theorem bankGet_bankSetAll_formed (ws : List (Nat × BankWord)) (hws : ∀ e ∈ ws, Formed e.2) (i : Nat) :
    ∀ m, Memory.wf m = true → bankGet (bankSetAll m ws) i = bankGet m i ∨ Formed (bankGet (bankSetAll m ws) i) := by
  induction ws with
  | nil => exact fun m _ => .inl rfl
  | cons e ws ih =>
    intro m hm
    have hrest := ih (fun x hx => hws x (List.mem_cons_of_mem e hx)) (bankSet m e.1 e.2) (bankSet_wf m e.1 e.2 hm)
    change bankGet (bankSetAll (bankSet m e.1 e.2) ws) i = _ ∨ _
    rcases hrest with h | h
    · rw [bankGet_bankSet m e.1 i e.2 hm] at h
      split at h
      · exact .inr (h ▸ hws e List.mem_cons_self)
      · exact .inl h
    · exact .inr h

/-- What a command makes of the bank's words: some words in the forms written are set, in order. -/
theorem exec_words {c : Instr} (h : exec c s = .next t) :
    ∃ ws, (∀ e ∈ ws, Formed e.2) ∧ t.bank.words = bankSetAll s.bank.words ws := by
  have same (e : t.bank.words = s.bank.words) :
      ∃ ws, (∀ e ∈ ws, Formed e.2) ∧ t.bank.words = bankSetAll s.bank.words ws := ⟨[], by simp, e⟩
  cases exec_effect h with
  | kept k => exact same (fixed_bank_words k.fixed)
  | reset hc =>
    rcases isReset_cases hc with rfl | ⟨n, rfl⟩ | ⟨pins, rfl⟩
    · exact same (powerOn_asReset h).2.1
    · rw [(resetn_asReset h).2.1]
      unfold cutClaim
      split
      · exact ⟨[], by simp, rfl⟩
      · exact ⟨_, formed_cutWrites _ _ _, rfl⟩
    · exact same (congrArg (fun x => x.2.2) (release_fixed h))
  | expelled hc ht =>
    rw [ht, (expel_records _).2.2.2]
    unfold finishClaim
    split
    · exact ⟨[], by simp, rfl⟩
    · exact ⟨_, formed_claimWrites _ _, rfl⟩
  | joined m v hc hm k => exact same (fixed_bank_words k.fixed)
  | claimed b hc hb k => exact ⟨_, formed_claimWrites s.bank.words b.claim, fixed_bank_words k.fixed⟩
  | enabled v hc k => exact same (congrArg (fun x => x.2.2.2.2) k.fixed)

/-- Settles O4: a command only sets words in the forms written, and each such list leaves a word as it was or formed. -/
theorem wordsAreWrittenGoodOrVoid : Obligations.WordsAreWrittenGoodOrVoid := by
  intro c s t i hwf h
  obtain ⟨ws, hws, e⟩ := exec_words h
  rw [e]
  exact bankGet_bankSetAll_formed ws hws i _ hwf

/-! ### Sound states -/

theorem Rejoined.sound (h : Rejoined s t) (hs : s.Sound) (hb : Memory.wf t.bank.words = true) : t.Sound :=
  ⟨h.bounded hs.bounded, h.keyed hs.keyed, (h.counters hs.counters).1, h.sized hs.sized, hb⟩

theorem setView_rejoined (j : Nat) (v : ViewEntry) (s : State) : Rejoined s (setView j v s) :=
  ⟨fun k => ⟨k.of_eq rfl, .refl _⟩, fun k => ⟨by simpa [setView, setAt] using k.views, k.slots, k.seqs, k.accs⟩,
    fun k => k.of_eq rfl rfl rfl rfl, fun k => k.of_eq rfl rfl rfl rfl, id⟩

theorem popInbound_carried (s : State) : Carried s (popInbound s) := (Kept.popInbound (.refl s)).toCarried

/-- Every command but RESETn and the power-on reset keeps the parts of a sound state; those two make them anew. -/
theorem exec_rejoined {c : Instr} (h : exec c s = .next t) : Rejoined s t ∨ AsReset s t := by
  cases exec_effect h with
  | kept k => exact .inl k.toCarried.rejoined
  | reset hc =>
    rcases isReset_cases hc with rfl | ⟨n, rfl⟩ | ⟨pins, rfl⟩
    · exact .inr (powerOn_asReset h).1
    · exact .inr (resetn_asReset h).1
    · exact .inl (release_rejoined h)
  | expelled hc ht => exact .inl ((popInbound_carried s).rejoined.trans (ht ▸ expel_rejoined _))
  | joined m v hc hm k =>
    exact .inl ((popInbound_carried s).rejoined.trans ((setView_rejoined m.source v _).trans k.toCarried.rejoined))
  | claimed b hc hb k => exact .inl (((Carried.refl s).runClaim b.claim).trans k.toCarried).rejoined
  | enabled v hc k => exact .inl (((Carried.refl s).setEnables v).trans k.toCarried).rejoined

theorem exec_sound {c : Instr} (hs : s.Sound) (h : exec c s = .next t) : t.Sound := by
  obtain ⟨ws, -, e⟩ := exec_words h
  have hb : Memory.wf t.bank.words = true := e ▸ bankSetAll_wf ws _ hs.bank
  rcases exec_rejoined h with k | k
  · exact k.sound hs hb
  · exact k.sound hb

theorem exec_places {c : Instr} (hs : placesInUse s ≤ 8) (h : exec c s = .next t) : placesInUse t ≤ 8 := by
  rcases exec_rejoined h with k | k
  · exact k.places hs
  · rw [k.places]
    omega

theorem setPending_rejoined (l : List Instr) (s : State) : Rejoined s (s.setPending l) :=
  ⟨fun k => ⟨k.of_eq rfl, .refl _⟩, fun k => k.of_eq rfl rfl rfl, fun k => k.of_eq rfl rfl rfl rfl,
    fun k => k.of_eq rfl rfl rfl rfl, id⟩

/-- A step idles, or runs one command on the station with another queue. -/
theorem step_cases (h : step s = .next t) : t = s ∨ ∃ c rest, exec c (s.setPending rest) = .next t := by
  unfold step at h
  split at h
  · cases h
    exact .inl rfl
  · exact .inr ⟨_, _, h⟩

/-- Settles O5, from the effects of a command. -/
theorem stepsKeepStationSound : Obligations.StepsKeepStationSound := by
  intro s t hs h
  rcases step_cases h with rfl | ⟨c, rest, h⟩
  · exact hs
  · exact exec_sound ((setPending_rejoined rest s).sound hs hs.bank) h

/-- Settles O6, from the effects of a command: each reply queued finds its place free or has it reserved. -/
theorem stepsKeepReplyPlaces : Obligations.StepsKeepReplyPlaces := by
  intro s t hs h
  rcases step_cases h with rfl | ⟨c, rest, h⟩
  · exact hs
  · exact exec_places (s := s.setPending rest) hs h

/-! ### Records -/

theorem release_completes (pins : StrapPins) (s : State) : ∃ t, execResetRelease pins s = .next t := by
  unfold execResetRelease
  split
  · exact ⟨_, rfl⟩
  · dsimp only
    split <;> exact ⟨_, rfl⟩

theorem hello_completes (s : State) : ∃ t, execHello s = .next t := by
  unfold execHello
  split
  · exact ⟨_, rfl⟩
  · split <;> exact ⟨_, rfl⟩

theorem fail_completes (s : State) : ∃ t, execFail s = .next t := by
  unfold execFail
  split
  · exact ⟨_, rfl⟩
  · dsimp only
    split
    · split <;> exact ⟨_, rfl⟩
    · split
      · exact ⟨_, rfl⟩
      · exact ⟨_, rfl⟩
      all_goals split <;> exact ⟨_, rfl⟩

/-- The completion of a claim faults on a claim outside the bank, and on no other (log entry 27). -/
theorem claim_completes (s : State) : (∃ t, execBankClaimCompletion s = .next t) ∨
    (execBankClaimCompletion s = .fault .bankRange ∧
      ∃ b, s.bank.busy = some b ∧ claimInBank s.straps b.claim = false) := by
  unfold execBankClaimCompletion
  split
  · exact .inl ⟨_, rfl⟩
  next b hb =>
    split
    next hout => exact .inr ⟨rfl, b, hb, by simpa using hout⟩
    · exact .inl ⟨_, rfl⟩

/-- Settles O3: the commands that carry over complete, and so do the others but for a claim outside the bank. -/
theorem everyCommandCompletes : Obligations.EveryCommandCompletes := by
  intro c s
  rcases exec_keeps c s with ⟨t, ho, -⟩ | h
  · exact .inl ⟨t, ho⟩
  · cases h with
    | reset hc =>
      rcases isReset_cases hc with rfl | ⟨n, rfl⟩ | ⟨pins, rfl⟩
      · exact .inl ⟨_, rfl⟩
      · exact .inl ⟨_, rfl⟩
      · exact .inl (release_completes pins s)
    | hello hc => exact .inl (hc ▸ hello_completes s)
    | fail hc => exact .inl (hc ▸ fail_completes s)
    | claim hc =>
      subst hc
      exact (claim_completes s).imp_right fun h => ⟨rfl, h⟩
    | access a ha hc => exact .inl ⟨_, ha⟩

theorem inc_ne_add_one (x : BitVec 4) : x + 1 ≠ x := by decide +revert

/-- Settles O2, from the effects of a command. -/
theorem recordsChangeOnlyByTheirCommands : Obligations.RecordsChangeOnlyByTheirCommands := by
  refine ⟨fun c s t h => ?_, fun c s t h hclaim hreset hfail => ?_, fun c s t h hne => ?_, fun c s t hwf h hne => ?_⟩
  · cases exec_effect h with
    | kept k => exact congrArg (fun x => x.2.2.2.1) k.fixed
    | reset hc =>
      rcases isReset_cases hc with rfl | ⟨n, rfl⟩ | ⟨pins, rfl⟩
      · exact (powerOn_asReset h).1.pending
      · exact (resetn_asReset h).1.pending
      · exact congrArg (fun x => x.2.1) (release_fixed h)
    | expelled hc ht => exact ht ▸ (expel_records _).2.2.1
    | joined m v hc hm k => exact congrArg (fun x => x.2.2.2.1) k.fixed
    | claimed b hc hb k => exact congrArg (fun x => x.2.2.2.1) k.fixed
    | enabled v hc k => exact congrArg (fun x => x.2.2.2.1) k.fixed
  · cases exec_effect h with
    | kept k => exact fixed_bank_words k.fixed
    | reset hc =>
      rcases isReset_cases hc with rfl | ⟨n, rfl⟩ | ⟨pins, rfl⟩
      · exact (powerOn_asReset h).2.1
      · exact absurd rfl (hreset _)
      · exact congrArg (fun x => x.2.2) (release_fixed h)
    | expelled hc ht =>
      have hinc := hfail hc
      rw [ht, expel_inc] at hinc
      exact absurd hinc (inc_ne_add_one _)
    | joined m v hc hm k => exact fixed_bank_words k.fixed
    | claimed b hc hb k => exact absurd hc hclaim
    | enabled v hc k => exact congrArg (fun x => x.2.2.2.2) k.fixed
  · cases exec_effect h with
    | kept k => exact absurd k.straps hne
    | reset hc =>
      rcases isReset_cases hc with rfl | ⟨n, rfl⟩ | ⟨pins, rfl⟩
      · exact absurd (powerOn_asReset h).1.straps hne
      · exact absurd (resetn_asReset h).1.straps hne
      · rcases release_cases h with rfl | ⟨hr, hp, -⟩
        · exact absurd rfl hne
        · exact ⟨hr, by rw [hp]⟩
    | expelled hc ht => exact absurd (ht ▸ (expel_records _).1) hne
    | joined m v hc hm k => exact absurd k.straps hne
    | claimed b hc hb k => exact absurd k.straps hne
    | enabled v hc k => exact absurd k.straps hne
  · cases exec_effect h with
    | kept k => exact absurd (congrArg (fun x => x.2.2.1) k.fixed) hne
    | reset hc =>
      rcases isReset_cases hc with rfl | ⟨n, rfl⟩ | ⟨pins, rfl⟩
      · exact .inl rfl
      · exact .inr (.inl ⟨_, rfl⟩)
      · exact absurd (congrArg (fun x => x.1) (release_fixed h)) hne
    | expelled hc ht => exact absurd (ht ▸ (expel_records _).2.1) hne
    | joined m v hc hm k => exact absurd (congrArg (fun x => x.2.2.1) k.fixed) hne
    | claimed b hc hb k => exact absurd (congrArg (fun x => x.2.2.1) k.fixed) hne
    | enabled v hc k => exact .inr (.inr (hc hwf))

/-- Settles O8, from the effects of a command that is no reset. -/
theorem countersNeverFall : Obligations.CountersNeverFall := by
  intro c s t hc hs h
  have hkept : Rejoined s t := by
    cases exec_effect h with
    | kept k => exact k.toCarried.rejoined
    | reset hr => exact absurd (hc.symm.trans hr) Bool.false_ne_true
    | expelled hc ht => exact (popInbound_carried s).rejoined.trans (ht ▸ expel_rejoined _)
    | joined m v hc hm k =>
      exact (popInbound_carried s).rejoined.trans ((setView_rejoined m.source v _).trans k.toCarried.rejoined)
    | claimed b hc hb k => exact (((Carried.refl s).runClaim b.claim).trans k.toCarried).rejoined
    | enabled v hc k => exact (((Carried.refl s).setEnables v).trans k.toCarried).rejoined
  obtain ⟨hfit, h1, h2, h3, h4, h5, h6⟩ := hkept.counters hs
  exact ⟨hfit, h1, h2, h3, h4, h5, h6⟩

/-- Settles O9, from the effects of a command. -/
theorem incarnationMovesOnlyAtJoins : Obligations.IncarnationMovesOnlyAtJoins := by
  intro c s t h hne
  cases exec_effect h with
  | kept k => exact absurd k.inc hne
  | reset hc =>
    rcases isReset_cases hc with rfl | ⟨n, rfl⟩ | ⟨pins, rfl⟩
    · exact .inl ⟨rfl, congrArg Membership.ownInc (powerOn_asReset h).2.2⟩
    · exact absurd (congrArg Membership.ownInc (resetn_asReset h).2.2) hne
    · exact .inr ⟨(release_inc h).resolve_left hne, .inr ⟨_, rfl⟩⟩
  | expelled hc ht => exact .inr ⟨ht ▸ expel_inc _, .inl hc⟩
  | joined m v hc hm k => exact absurd k.inc hne
  | claimed b hc hb k => exact absurd k.inc hne
  | enabled v hc k => exact absurd k.inc hne

/-- Settles O10, from the effects of a command: only a HELLO replaces a FAILED entry of another station. -/
theorem onlyHelloLiftsFailure : Obligations.OnlyHelloLiftsFailure := by
  intro c s t j h _ _ hown hf hlift
  cases exec_effect h with
  | kept k => exact absurd (k.failed j hown hf) hlift
  | reset hc => exact .inl hc
  | expelled hc ht => exact .inr (.inl ⟨hc, ht ▸ expel_ownState _, ht ▸ expel_inc _⟩)
  | joined m v hc hm k =>
    obtain ⟨⟨rest, hq⟩, hk⟩ := head_of_inboundOf hm
    by_cases hj : m.source = j
    · exact .inr (.inr ⟨hc, m, rest, hq, hk, hj⟩)
    · have hother : (viewAt (setView m.source v (popInbound s)) j).state = .failed := by
        simpa [viewAt, setView, setAt, List.getElem?_set, hj, popInbound] using hf
      exact absurd (k.failed j hown hother) hlift
  | claimed b hc hb k => exact absurd (k.failed j hown hf) hlift
  | enabled v hc k => exact absurd (k.failed j hown hf) hlift

end Sys2Proof.Machine
end

section
/-! PROOFS. Lanes, parity and the XOR of words (R10 to R13, R85, R110 to R114, R142, R148). -/

namespace Sys2Proof.Machine

/-! ### Lanes -/

theorem oddByte_iff (b : Byte) : oddByte b = true ↔ (List.range 8).countP (fun n => b.getLsbD n) % 2 = 1 := by
  have hbits : ∀ b0 b1 b2 b3 b4 b5 b6 b7 : Bool,
      (((b0 ^^ b1) ^^ (b2 ^^ b3)) ^^ ((b4 ^^ b5) ^^ (b6 ^^ b7))) = true ↔
        ([b0, b1, b2, b3, b4, b5, b6, b7].countP id) % 2 = 1 := by decide
  refine (hbits (b.getLsbD 0) (b.getLsbD 1) (b.getLsbD 2) (b.getLsbD 3) (b.getLsbD 4) (b.getLsbD 5) (b.getLsbD 6)
    (b.getLsbD 7)).trans ?_
  simp [List.range_succ, List.countP_cons]

theorem laneByte_getLsbD (w : Word) (i : Nat) {n : Nat} (hn : n < 8) :
    (laneByte w i).getLsbD n = w.getLsbD (8 * i + n) := by simp [laneByte, hn]

/-- The ones of a lane are those of its byte and its parity bit. -/
theorem onesInLane_eq (b : BankWord) (i : Nat) :
    onesInLane b i = (List.range 8).countP (fun n => (laneByte b.data i).getLsbD n) + (b.par.getLsbD i).toNat := by
  unfold onesInLane
  congr 1
  refine List.countP_congr fun n hn => ?_
  rw [laneByte_getLsbD _ _ (List.mem_range.1 hn)]

theorem laneGood_iff (b : BankWord) (i : Nat) : laneGood b i = true ↔ onesInLane b i % 2 = 1 := by
  have hbyte := oddByte_iff (laneByte b.data i)
  rw [onesInLane_eq, laneGood]
  cases hodd : oddByte (laneByte b.data i) <;> cases b.par.getLsbD i <;> simp [hodd] at hbyte ⊢ <;> omega

theorem goodIn_iff (b : BankWord) (m : Lanes) :
    goodIn m b = true ↔ ∀ i, i < 4 → m.getLsbD i = true → laneGood b i = true := by
  constructor
  · intro h i hi hm
    have hcases : i = 0 ∨ i = 1 ∨ i = 2 ∨ i = 3 := by omega
    rcases hcases with rfl | rfl | rfl | rfl <;> simp_all [goodIn]
  · intro h
    have hlane (i : Nat) (hi : i < 4) : (!m.getLsbD i || laneGood b i) = true := by
      cases hm : m.getLsbD i
      · rfl
      · simpa using h i hi hm
    simp only [goodIn, hlane 0 (by omega), hlane 1 (by omega), hlane 2 (by omega), hlane 3 (by omega), Bool.and_self]

theorem isGood_iff (b : BankWord) : isGood b = true ↔ ∀ i, i < 4 → laneGood b i = true := by
  have hall : ∀ i, i < 4 → (0xF#4).getLsbD i = true := by decide
  rw [isGood, goodIn_iff]
  exact forall₂_congr fun i hi => by simp [hall i hi]

theorem goodIn_compl_iff (b : BankWord) (l : Lanes) :
    goodIn (~~~ l) b = true ↔ ∀ i, i < 4 → l.getLsbD i = false → laneGood b i = true := by
  rw [goodIn_iff]
  refine forall₂_congr fun i hi => ?_
  simp [hi]

theorem laneGood_voidWord {i : Nat} (hi : i < 4) : laneGood voidWord i = false := by
  have hcases : i = 0 ∨ i = 1 ∨ i = 2 ∨ i = 3 := by omega
  rcases hcases with rfl | rfl | rfl | rfl <;> decide

/-- The mask of a lane set has the bits of its lanes. -/
theorem laneMask_getLsbD (l : Lanes) {i n : Nat} (hi : i < 4) (hn : n < 8) :
    (laneMask l).getLsbD (8 * i + n) = l.getLsbD i := by
  have hall : ∀ (l : Lanes) (i : Fin 4) (n : Fin 8), (laneMask l).getLsbD (8 * i.val + n.val) = l.getLsbD i.val := by
    decide +kernel
  exact hall l ⟨i, hi⟩ ⟨n, hn⟩

theorem laneByte_maskLanes (l : Lanes) (w : Word) {i : Nat} (hi : i < 4) :
    laneByte (maskLanes l w) i = if l.getLsbD i then laneByte w i else 0 := by
  refine BitVec.eq_of_getLsbD_eq fun n hn => ?_
  rw [laneByte_getLsbD _ _ hn, maskLanes, BitVec.getLsbD_and, laneMask_getLsbD l hi hn, ← laneByte_getLsbD _ _ hn]
  cases l.getLsbD i <;> simp

theorem laneByte_mergeLanes (l : Lanes) (new old : Word) {i : Nat} (hi : i < 4) :
    laneByte (mergeLanes l new old) i = if l.getLsbD i then laneByte new i else laneByte old i := by
  refine BitVec.eq_of_getLsbD_eq fun n hn => ?_
  rw [laneByte_getLsbD _ _ hn, mergeLanes, BitVec.getLsbD_or, BitVec.getLsbD_and, BitVec.getLsbD_and, BitVec.getLsbD_not,
    laneMask_getLsbD l hi hn, ← laneByte_getLsbD _ _ hn, ← laneByte_getLsbD _ _ hn]
  have hlow : 8 * i + n < 32 := by omega
  cases l.getLsbD i <;> simp [hlow]

/-- Settles O16, lane by lane. -/
theorem lanesAreJudgedAndMerged : Obligations.LanesAreJudgedAndMerged := by
  refine ⟨⟨fun b i _ => laneGood_iff b i, fun b m => goodIn_iff b m, isGood_iff, fun w => ⟨rfl, isGood_goodWord w⟩,
    fun i hi => laneGood_voidWord hi⟩, fun l new old i hi => ⟨laneByte_mergeLanes l new old hi, laneByte_maskLanes l new hi⟩,
    fun l v d old => ⟨fun h => ?_, fun ⟨i, hi, hl, hbad⟩ => ?_, fun h => if_pos h, fun h => if_neg (by simp [h])⟩⟩
  · have hgood := (goodIn_compl_iff old l).2 h
    exact ⟨if_pos hgood, if_pos hgood⟩
  · have hnot : ¬ goodIn (~~~ l) old = true := fun h => by
      rw [(goodIn_compl_iff old l).1 h i hi hl] at hbad
      cases hbad
    exact ⟨if_neg hnot, if_neg hnot⟩

/-! ### The XOR of words -/

theorem foldl_xor (l : List Word) (a : Word) : l.foldl (· ^^^ ·) a = a ^^^ xorWords l := by
  induction l generalizing a with
  | nil => exact BitVec.xor_zero.symm
  | cons x l ih =>
    have hx : xorWords (x :: l) = 0#32 ^^^ x ^^^ xorWords l := ih (0 ^^^ x)
    rw [List.foldl_cons, ih, hx, BitVec.zero_xor, BitVec.xor_assoc]

@[simp] theorem xorWords_nil : xorWords [] = 0 := rfl

@[simp] theorem xorWords_cons (x : Word) (l : List Word) : xorWords (x :: l) = x ^^^ xorWords l := by
  rw [xorWords, List.foldl_cons, foldl_xor]
  exact congrArg (· ^^^ xorWords l) BitVec.zero_xor

@[simp] theorem xorWords_append (l k : List Word) : xorWords (l ++ k) = xorWords l ^^^ xorWords k := by
  rw [xorWords, List.foldl_append, foldl_xor]
  rfl

theorem xor_cancel_left (a b : Word) : a ^^^ (a ^^^ b) = b := by
  rw [← BitVec.xor_assoc, BitVec.xor_self, BitVec.zero_xor]

/-- One word of a list replaced changes the XOR by the difference of the two. -/
theorem xorWords_set {ws : List Word} {k : Nat} {old : Word} (new : Word) (h : ws[k]? = some old) :
    xorWords (ws.set k new) = xorWords ws ^^^ (old ^^^ new) := by
  induction ws generalizing k with
  | nil => simp at h
  | cons w ws ih =>
    cases k with
    | zero =>
      obtain rfl : w = old := by simpa using h
      simp only [List.set_cons_zero, xorWords_cons]
      rw [BitVec.xor_comm w (xorWords ws), BitVec.xor_assoc, xor_cancel_left, BitVec.xor_comm]
    | succ k =>
      rw [List.set_cons_succ, xorWords_cons, xorWords_cons, ih (by simpa using h), BitVec.xor_assoc]

/-- The XOR of a list of XORs is the XOR of the two lists' XORs. -/
theorem xorWords_map_xor {α : Type} (l : List α) (f g : α → Word) :
    xorWords (l.map fun x => f x ^^^ g x) = xorWords (l.map f) ^^^ xorWords (l.map g) := by
  induction l with
  | nil => exact BitVec.xor_zero.symm
  | cons x l ih =>
    simp only [List.map_cons, xorWords_cons, ih]
    ac_rfl

theorem xorWords_map_zero {α : Type} (l : List α) : xorWords (l.map fun _ => 0) = 0 := by
  induction l with
  | nil => rfl
  | cons x l ih => exact (xorWords_cons 0 _).trans (by rw [ih, BitVec.xor_self]; rfl)

/-- Columns and rows of a rectangle of words have one XOR. -/
theorem xorWords_transpose (w : Nat) (units : List (List Word)) (h : ∀ u ∈ units, u.length = w) :
    xorWords ((List.range w).map fun o => xorWords (units.map fun u => u.getD o 0)) = xorWords (units.map xorWords) := by
  induction units with
  | nil => exact xorWords_map_zero (List.range w)
  | cons u units ih =>
    have hrow : (List.range w).map (fun o => u.getD o 0) = u := by
      refine List.ext_getElem (by simp [h u List.mem_cons_self]) fun i h1 h2 => ?_
      simp [h2]
    simp only [List.map_cons, xorWords_cons]
    rw [xorWords_map_xor, ih fun v hv => h v (List.mem_cons_of_mem u hv), hrow]

/-! ### The accumulator (R85, R118, R130) -/

theorem contribute_some_word (a : Accum) {o : Nat} (x : Word) (h : o < a.words.length) :
    (a.contribute o (some x)).word o = a.word o ^^^ x := by
  simp [Accum.contribute, Accum.word, setAt, h]

theorem foldl_contribute_some (xs : List Word) (o : Nat) : ∀ a : Accum, o < a.words.length →
    (xs.foldl (fun a y => a.contribute o (some y)) a).word o = a.word o ^^^ xorWords xs ∧
    (xs.foldl (fun a y => a.contribute o (some y)) a).flags = a.flags := by
  induction xs with
  | nil => simp
  | cons x xs ih =>
    intro a h
    obtain ⟨hword, hflags⟩ := ih (a.contribute o (some x)) (by simpa [Accum.contribute, setAt] using h)
    refine ⟨?_, hflags⟩
    rw [List.foldl_cons, hword, contribute_some_word a x h, xorWords_cons, BitVec.xor_assoc]

theorem contribute_flag (a : Accum) (o : Nat) (c : Option Word) (h : o < a.flags.length) (hf : c = none ∨ a.flag o = true) :
    (a.contribute o c).flag o = true ∧ o < (a.contribute o c).flags.length := by
  cases c with
  | none => simp [Accum.contribute, Accum.flag, setAt, h]
  | some x => exact ⟨hf.resolve_left (by simp), h⟩

theorem foldl_contribute_flag (cs : List (Option Word)) (o : Nat) : ∀ a : Accum, o < a.flags.length →
    none ∈ cs ∨ a.flag o = true → (cs.foldl (fun a c => a.contribute o c) a).flag o = true := by
  induction cs with
  | nil => exact fun a _ h => h.resolve_left (by simp)
  | cons c cs ih =>
    intro a ha h
    have hlen : o < (a.contribute o c).flags.length := by cases c <;> simpa [Accum.contribute, setAt] using ha
    refine ih _ hlen ?_
    rcases h with h | h
    · rcases List.mem_cons.1 h with hc | h
      · exact .inr (contribute_flag a o c ha (.inl hc.symm)).1
      · exact .inl h
    · exact .inr (contribute_flag a o c ha (.inr h)).1

/-- Settles O17: at its offset the accumulator holds the XOR of what was contributed, in which all but the missing word
cancel. -/
theorem accumulatorReconstructs : Obligations.AccumulatorReconstructs := by
  intro w o ho
  refine ⟨fun front back x => ?_, fun cs hcs => ?_⟩
  · dsimp only
    obtain ⟨hword, hflags⟩ := foldl_contribute_some (front ++ back ++ [xorWords (front ++ [x] ++ back)]) o (freshAccum w)
      (by simpa [freshAccum] using ho)
    refine ⟨?_, ?_⟩
    · have hzero : (freshAccum w).word o = 0 := by
        simp [Accum.word, freshAccum, List.getElem?_replicate, ho]
      have hcancel : ∀ a b : Word, a ^^^ b ^^^ (a ^^^ x ^^^ b) = x := by
        intro a b
        rw [BitVec.xor_comm (a ^^^ x) b, ← BitVec.xor_assoc, BitVec.xor_assoc a b b, BitVec.xor_self, BitVec.xor_zero,
          xor_cancel_left]
      rw [hword, hzero]
      simpa [BitVec.xor_assoc] using hcancel (xorWords front) (xorWords back)
    · rw [Accum.flag, hflags]
      simp [freshAccum, List.getElem?_replicate, ho]
  · exact foldl_contribute_flag cs o _ (by simpa [freshAccum] using ho) (.inl hcs)

/-! ### Deltas (R16, R111, R113) -/

theorem holderAnswer_update_good {f : Fields} {old : BankWord} {v : Word} (hv : f.payload = [v]) (h : isGood old = true) :
    holderAnswer .update f [old] =
      { kind := .delta, f := { payload := [old.data ^^^ mergeLanes f.lanes v old.data] } } := by
  simp [holderAnswer, h, hv]

theorem mergeDecision_delta {old : BankWord} (d : Word) (h : isGood old = true) :
    mergeDecision (.delta d) old = some (goodWord (old.data ^^^ d)) := if_pos h

/-- Settles O18: the DELTA is the difference of the old and the merged word, and differences commute. -/
theorem deltasKeepParity : Obligations.DeltasKeepParity := by
  refine ⟨fun ws k old f v _ hk hgood hv => ?_, fun d e old hgood => ⟨old.data ^^^ d ^^^ e, ?_, ?_⟩⟩
  · exact ⟨_, holderAnswer_update_good hv hgood, xorWords_set _ hk⟩
  · rw [mergeDecision_delta d hgood, Option.bind_some, mergeDecision_delta e (isGood_goodWord _)]
    rfl
  · rw [mergeDecision_delta e hgood, Option.bind_some, mergeDecision_delta d (isGood_goodWord _)]
    exact congrArg (fun w => some (goodWord w)) (by ac_rfl)

/-! ### Folds (R142, R148) -/

theorem foldUnit_goodWords (u : List Word) : foldUnit (u.map goodWord) = xorWords u := by
  induction u with
  | nil => rfl
  | cons x u ih =>
    simp only [foldUnit, List.map_cons, List.filter_cons, isGood_goodWord, if_true, xorWords_cons] at ih ⊢
    rw [ih]
    rfl

theorem foldUnit_eq (ws : List BankWord) : foldUnit ws = xorWords (ws.map fun b => if isGood b then b.data else 0) := by
  induction ws with
  | nil => rfl
  | cons b ws ih =>
    simp only [foldUnit, List.filter_cons, List.map_cons, xorWords_cons] at ih ⊢
    split <;> simp [ih]

theorem mem_badOffsets_iff (ws : List BankWord) (o : Nat) :
    o ∈ badOffsets ws ↔ ∃ b, ws[o]? = some b ∧ isGood b = false := by
  simp only [badOffsets, List.mem_filter, List.mem_range]
  constructor
  · rintro ⟨ho, hbad⟩
    exact ⟨ws[o], List.getElem?_eq_getElem ho, by simpa [ho] using hbad⟩
  · rintro ⟨b, hb, hbad⟩
    obtain ⟨ho, rfl⟩ := List.getElem?_eq_some_iff.1 hb
    exact ⟨ho, by simpa [ho] using hbad⟩

/-- Settles O19: columns and rows of a consistent stripe have one XOR. -/
theorem foldsCompareStripes : Obligations.FoldsCompareStripes := by
  refine ⟨fun w units h => ?_, fun ws => ⟨foldUnit_eq ws, ?_, mem_badOffsets_iff ws⟩⟩
  · simp only [foldUnit_goodWords]
    exact xorWords_transpose w units h
  · exact List.pairwise_lt_range.filter _

end Sys2Proof.Machine
end

section
/-! PROOFS. The placement of shared words (R5, R7, R9), and contention (R27 to R29). -/

namespace Sys2Proof.Machine

/-! ### The placement of shared words -/

/-- The quantities of valid straps: a unit is a whole number of words, the bank a whole number of units, and there are
data units. -/
theorem straps_quantities {p : StrapPins} (h : strapsValid p = true) :
    0 < unitBytes p ∧ unitBytes p = 4 * unitWords p ∧ bankBytes p = stripeCount p * unitBytes p ∧ 0 < dataUnits p := by
  have hunit : ∀ u : BitVec 2, (usDecode u).isSome = true →
      0 < (usDecode u).getD 0 ∧ (usDecode u).getD 0 = 4 * ((usDecode u).getD 0 / 4) ∧
      ∀ b : BitVec 2, bsDecode b = bsDecode b / (usDecode u).getD 0 * (usDecode u).getD 0 := by decide
  have hgroup : ∀ g : BitVec 3, (gsDecode g).isSome = true → 0 < (gsDecode g).getD 0 - 1 := by decide
  simp only [strapsValid, Bool.and_eq_true] at h
  obtain ⟨hpos, hwords, hbank⟩ := hunit p.us h.1.2
  exact ⟨hpos, hwords, hbank p.bs, hgroup p.gs h.1.1⟩

/-- Settles O14, with the address read as its unit number and its place in the unit. -/
theorem placementIsOneToOne : Obligations.PlacementIsOneToOne := by
  intro p hp
  obtain ⟨hU, hUW, hB, hD⟩ := straps_quantities hp
  generalize hu : unitBytes p = U at *
  generalize hw : unitWords p = W at *
  generalize hs : stripeCount p = S at *
  generalize hd : dataUnits p = D at *
  have hshared : D * bankBytes p = S * D * U := by rw [hB]; ac_rfl
  constructor
  · intro a ha
    rw [hshared] at ha
    have hunit : a / U < S * D := Nat.div_lt_of_lt_mul (by rwa [Nat.mul_comm])
    have hoff : a % U < 4 * W := hUW ▸ Nat.mod_lt a hU
    refine ⟨?_, ?_, ?_, ?_⟩
    · simpa [placeOf, hu, hd] using Nat.div_lt_of_lt_mul (by rwa [Nat.mul_comm])
    · simpa [placeOf, hu, hd] using Nat.mod_lt _ hD
    · simp only [placeOf, hu]
      omega
    · have hsplit : a / 4 = W * (a / U) + a % U / 4 := by
        have ha := Nat.div_add_mod a U
        rw [hUW, Nat.mul_assoc] at ha
        rw [hUW]
        omega
      simp only [sharedAddr, placeOf, hu, hd, wordAddr, Nat.div_add_mod', hsplit]
      rw [hUW]
      have hunits : a / (4 * W) * (4 * W) = W * (a / (4 * W)) * 4 := by ac_rfl
      rw [hunits, Nat.add_mul, Nat.mul_comm 4 (a % (4 * W) / 4)]
  · rintro ⟨st, k, o⟩ hst hk ho
    dsimp only at hst hk ho
    have hunit : st * D + k < S * D := by
      calc st * D + k < (st + 1) * D := by rw [Nat.add_one_mul]; omega
        _ ≤ S * D := Nat.mul_le_mul_right D hst
    have hin : 4 * o < U := by omega
    have hidx : ((st * D + k) * U + 4 * o) / U = st * D + k := by
      rw [Nat.mul_comm _ U, Nat.mul_add_div hU, Nat.div_eq_of_lt hin, Nat.add_zero]
    have hoff : ((st * D + k) * U + 4 * o) % U = 4 * o := by
      rw [Nat.mul_comm _ U, Nat.mul_add_mod, Nat.mod_eq_of_lt hin]
    refine ⟨?_, ?_, ?_⟩
    · rw [hshared]
      calc sharedAddr p ⟨st, k, o⟩ = (st * D + k) * U + 4 * o := by simp only [sharedAddr, hu, hd]
        _ < (st * D + k + 1) * U := by rw [Nat.add_one_mul (st * D + k) U]; omega
        _ ≤ S * D * U := Nat.mul_le_mul_right U hunit
    · have hstripe : (st * D + k) / D = st := by
        rw [Nat.mul_comm, Nat.mul_add_div hD, Nat.div_eq_of_lt hk, Nat.add_zero]
      have hpos : (st * D + k) % D = k := by rw [Nat.mul_comm, Nat.mul_add_mod, Nat.mod_eq_of_lt hk]
      simp only [placeOf, sharedAddr, hu, hd, hidx, hoff, hstripe, hpos]
      congr 1
      omega
    · calc bankIndex p st o = st * W + o := by simp only [bankIndex, hw]
        _ < (st + 1) * W := by rw [Nat.add_one_mul]; omega
        _ ≤ S * W := Nat.mul_le_mul_right W hst

/-! ### Contention -/

theorem getLsbD_iff_div (k : BitVec 4) (i : Nat) : k.getLsbD i = true ↔ k.toNat / 2 ^ i % 2 = 1 := by
  rw [← BitVec.testBit_toNat, Nat.testBit_eq_decide_div_mod_eq, decide_eq_true_iff]

/-- A key period keeps, of the keys that agree with the lowest above its bit, those that agree with it there too. -/
theorem keyPeriod_agreeing {ks : List (BitVec 4)} {k : BitVec 4} (hk : k ∈ ks) (hmin : ∀ x ∈ ks, k.toNat ≤ x.toNat) (i : Nat) :
    keyPeriod i (ks.filter fun x => x.toNat / 2 ^ (i + 1) = k.toNat / 2 ^ (i + 1)) =
      ks.filter fun x => x.toNat / 2 ^ i = k.toNat / 2 ^ i := by
  have hhalf (x : BitVec 4) : x.toNat / 2 ^ (i + 1) = x.toNat / 2 ^ i / 2 := by rw [Nat.pow_succ, Nat.div_div_eq_div_mul]
  have hbit (x : BitVec 4) : x.getLsbD i = false ↔ x.toNat / 2 ^ i % 2 = 0 := by
    rw [← Bool.not_eq_true, getLsbD_iff_div]
    omega
  have hle {x : BitVec 4} (hx : x ∈ ks) : k.toNat / 2 ^ i ≤ x.toNat / 2 ^ i := Nat.div_le_div_right (hmin x hx)
  unfold keyPeriod
  split
  next hany =>
    obtain ⟨x, hx, hxi⟩ := List.any_eq_true.1 hany
    have hx' := List.mem_filter.1 hx
    have hagree : x.toNat / 2 ^ (i + 1) = k.toNat / 2 ^ (i + 1) := by simpa using hx'.2
    have hzero := (hbit x).1 (by simpa using hxi)
    rw [List.filter_filter]
    refine List.filter_congr fun y hy => ?_
    have h1 := hle hx'.1
    have h2 := hle hy
    rw [hhalf, hhalf] at hagree
    rw [Bool.eq_iff_iff, Bool.and_eq_true, decide_eq_true_iff, decide_eq_true_iff, Bool.not_eq_true', hbit, hhalf, hhalf]
    omega
  next hnone =>
    refine List.filter_congr fun y hy => ?_
    have hall (z : BitVec 4) (hz : z ∈ ks) (ha : z.toNat / 2 ^ (i + 1) = k.toNat / 2 ^ (i + 1)) :
        ¬ z.toNat / 2 ^ i % 2 = 0 := by
      have hz' := List.any_eq_false.1 (Bool.not_eq_true _ ▸ hnone) z (List.mem_filter.2 ⟨hz, by simpa using ha⟩)
      rw [← hbit]
      simpa using hz'
    have h1 := hall k hk rfl
    have h2 := hall y hy
    rw [hhalf, hhalf] at h2
    rw [decide_eq_decide, hhalf, hhalf]
    omega

/-- The four key periods leave the lowest key alone. -/
theorem contend_eq {ks : List (BitVec 4)} {k : BitVec 4} (hk : k ∈ ks) (hmin : ∀ x ∈ ks, k.toNat ≤ x.toNat) :
    contend ks = ks.filter (· == k) := by
  have hall : ks = ks.filter fun x => x.toNat / 2 ^ (3 + 1) = k.toNat / 2 ^ (3 + 1) := by
    refine (List.filter_eq_self.2 fun x _ => ?_).symm
    have hx := x.isLt
    have hk := k.isLt
    rw [decide_eq_true_iff, Nat.div_eq_of_lt hx, Nat.div_eq_of_lt hk]
  have hend : (ks.filter fun x => x.toNat / 2 ^ 0 = k.toNat / 2 ^ 0) = ks.filter (· == k) := by
    refine List.filter_congr fun x _ => ?_
    rw [Bool.eq_iff_iff, decide_eq_true_iff, beq_iff_eq, Nat.pow_zero, Nat.div_one, Nat.div_one, BitVec.toNat_inj]
  calc contend ks = contend (ks.filter fun x => x.toNat / 2 ^ (3 + 1) = k.toNat / 2 ^ (3 + 1)) := congrArg contend hall
    _ = ks.filter fun x => x.toNat / 2 ^ 0 = k.toNat / 2 ^ 0 := by
      rw [contend, keyPeriod_agreeing hk hmin 3, keyPeriod_agreeing hk hmin 2, keyPeriod_agreeing hk hmin 1,
        keyPeriod_agreeing hk hmin 0]
    _ = ks.filter (· == k) := hend

theorem exists_lowest_key {ks : List (BitVec 4)} (h : ks ≠ []) : ∃ k ∈ ks, ∀ x ∈ ks, k.toNat ≤ x.toNat := by
  obtain ⟨k, hk⟩ := Option.isSome_iff_exists.1 (List.isSome_min?_of_ne_nil (l := ks.map BitVec.toNat) (by simpa using h))
  obtain ⟨hmem, hle⟩ := List.min?_eq_some_iff.1 hk
  obtain ⟨x, hx, rfl⟩ := List.mem_map.1 hmem
  exact ⟨x, hx, fun y hy => hle y.toNat (List.mem_map_of_mem hy)⟩

theorem keysDistinct_iff_nodup (ks : List (BitVec 4)) : keysDistinct ks = true ↔ ks.Nodup := by
  induction ks with
  | nil => simp [keysDistinct]
  | cons k ks ih => simp [keysDistinct, ih]

theorem contend_of_distinct {ks : List (BitVec 4)} {k : BitVec 4} (hk : k ∈ ks) (hmin : ∀ x ∈ ks, k.toNat ≤ x.toNat)
    (hd : keysDistinct ks = true) : contend ks = [k] := by
  have hcount : ks.count k = 1 := by rw [((keysDistinct_iff_nodup ks).1 hd).count, if_pos hk]
  rw [contend_eq hk hmin, List.filter_beq, hcount]
  rfl

theorem own_lt (s : State) : s.own < 8 := s.straps.sn.isLt

theorem keyOf_toNat (sel : OutSel) (s : State) :
    (keyOf (isReqClass sel) s.own).toNat = (if sel = .reply then 0 else 8) + s.own := by
  have hown := own_lt s
  cases sel <;>
    simp only [keyOf, isReqClass, BitVec.toNat_append, BitVec.toNat_ofNat, BitVec.toNat_ofBool, reduceCtorEq, if_true,
      if_false, Nat.mod_eq_of_lt (show s.own < 2 ^ 3 from hown)]
  · simp
  · exact (Nat.shiftLeft_add_eq_or_of_lt (by omega : s.own < 2 ^ 3) 1).symm
  · exact (Nat.shiftLeft_add_eq_or_of_lt (by omega : s.own < 2 ^ 3) 1).symm

/-- A key is still in at the end when it is below every other, and out when another is below it. -/
theorem contend_contains_of_lowest {key : BitVec 4} {others : List (BitVec 4)} (h : ∀ k ∈ others, key.toNat < k.toNat) :
    (contend (key :: others)).contains key = true := by
  rw [contend_eq (k := key) List.mem_cons_self fun x hx => ?_]
  · simp
  · rcases List.mem_cons.1 hx with rfl | hx
    · exact Nat.le_refl _
    · exact Nat.le_of_lt (h x hx)

theorem contend_contains_of_above {key k : BitVec 4} {others : List (BitVec 4)} (hk : k ∈ others) (h : k.toNat < key.toNat) :
    (contend (key :: others)).contains key = false := by
  obtain ⟨x, hx, hmin⟩ := exists_lowest_key (ks := key :: others) (by simp)
  have hlow := hmin k (List.mem_cons_of_mem key hk)
  rw [contend_eq hx hmin, ← Bool.not_eq_true, List.contains_iff_mem, List.mem_filter]
  rintro ⟨-, hkey⟩
  rw [beq_iff_eq] at hkey
  subst hkey
  omega

/-! ### What the station offers -/

theorem offer_eq {q : OutQ} {m : OutMsg} {rest : List OutMsg} (h : q.q = m :: rest) :
    q.offer = if q.backoff = none then some m else none := by
  simp [OutQ.offer, h]

theorem offer_none {q : OutQ} (h : q.q = [] ∨ q.backoff ≠ none) : q.offer = none := by
  rcases h with h | h <;> simp [OutQ.offer, h]

theorem ownOffer_notLive {s : State} (h : live s = false) : ownOffer s = none := by simp [ownOffer, h]

theorem ownOffer_reply {s : State} {m : OutMsg} {rest : List OutMsg} (hl : live s = true)
    (hq : s.link.replies.q = m :: rest) (hb : s.link.replies.backoff = none) : ownOffer s = some (.reply, m) := by
  simp [ownOffer, hl, offer_eq hq, hb]

theorem ownOffer_noReply {s : State} (hl : live s = true)
    (hq : s.link.replies.q = [] ∨ s.link.replies.backoff ≠ none) : ownOffer s =
      if s.link.deferred then none
      else if s.link.notices.q.isEmpty then s.link.requests.offer.map fun m => (.request, m)
      else s.link.notices.offer.map fun m => (.notice, m) := by
  simp only [ownOffer, hl, offer_none hq]
  rfl

/-! ### The contention decided -/

theorem execBusContention_none {s : State} (others : List (BitVec 4)) (hb : s.link.bus = .free) (ho : ownOffer s = none) :
    execBusContention others s = .next (if others = [] then s else s.setLink { s.link with bus := .other }) := by
  cases others <;> simp [execBusContention, hb, ho]

theorem execBusContention_won {s : State} {sel : OutSel} {m : OutMsg} {others : List (BitVec 4)} (hb : s.link.bus = .free)
    (ho : ownOffer s = some (sel, m)) (hw : (contend (keyOf (isReqClass sel) s.own :: others)).contains
      (keyOf (isReqClass sel) s.own) = true) :
    execBusContention others s = .next (s.setLink { s.link with
      bus := .own sel m.msg false, deferred := s.link.deferred || decide (sel ≠ .reply) }) := by
  have hclass : isReqClass sel = decide (sel ≠ .reply) := by cases sel <;> rfl
  rw [← hclass]
  simp only [execBusContention, hb, ho, hw]
  rfl

theorem execBusContention_lost {s : State} {sel : OutSel} {m : OutMsg} {others : List (BitVec 4)} (hb : s.link.bus = .free)
    (ho : ownOffer s = some (sel, m)) (hne : others ≠ []) (hw : (contend (keyOf (isReqClass sel) s.own :: others)).contains
      (keyOf (isReqClass sel) s.own) = false) :
    execBusContention others s = .next (s.setLink { s.link with bus := .other }) := by
  have hne' : others.isEmpty = false := by simpa using hne
  simp only [execBusContention, hb, ho, hw, hne']
  rfl

/-- Settles O12: the key periods leave the lowest key, and the station's key is its class and its number. -/
theorem contentionGoesToLowestKey : Obligations.ContentionGoesToLowestKey := by
  refine ⟨fun ks hne hd => ?_, fun s => ⟨ownOffer_notLive, fun hl => ⟨fun m rest => ownOffer_reply hl, fun hq => ?_⟩⟩,
    fun others s hb => ⟨fun sel m ho => ⟨fun h => ?_, ?_⟩, execBusContention_none others hb⟩⟩
  · obtain ⟨k, hk, hmin⟩ := exists_lowest_key hne
    exact ⟨k, hk, contend_of_distinct hk hmin hd, hmin⟩
  · rw [ownOffer_noReply hl hq]
    refine ⟨fun hd => by simp [hd], fun hd => ⟨fun m rest hn => ?_, fun hn => ⟨fun hr => ?_, fun m rest hr => ?_⟩⟩⟩
    · simp only [hd, hn, offer_eq hn, Bool.false_eq_true, if_false, List.isEmpty_cons]
      split <;> rfl
    · simp [hd, hn, offer_none (q := s.link.requests) (.inl hr)]
    · simp only [hd, hn, offer_eq hr, Bool.false_eq_true, if_false, List.isEmpty_nil, if_true]
      split <;> rfl
  · exact execBusContention_won hb ho (contend_contains_of_lowest fun k hk => keyOf_toNat sel s ▸ h k hk)
  · rintro ⟨k, hk, h⟩
    exact execBusContention_lost hb ho (List.ne_nil_of_mem hk) (contend_contains_of_above hk (keyOf_toNat sel s ▸ h))

end Sys2Proof.Machine
end

section
/-! PROOFS. The resets, the local port and the status window (R1 to R3, R20, R41, R44, R176 to R194, R199 to R201). -/

namespace Sys2Proof.Machine

/-! ### The resets -/

theorem bankPins_of_not_live {s : State} (h : live s = false) :
    ∃ ba, bankPins s = some { bce := true, boe := true, bwe := true, driven := false, ba := ba } :=
  ⟨_, if_neg (by simp [h])⟩

theorem live_of_inReset {s : State} (h : s.inReset = true) : live s = false := by simp [live, h]

theorem live_of_inert {s : State} (h : s.mem.ownState = .inert) : live s = false := by simp [live, h]

theorem cutBus_eq (b : Bus) : cutBus b = if b = .other then .other else .free := by cases b <;> rfl

/-- Settles O20, each block read off the state the reset leaves. -/
theorem powerOnResetsEveryBlock : Obligations.PowerOnResetsEveryBlock := fun _ =>
  ⟨_, rfl, rfl, rfl, congrArg (fun b => ({ bus := b } : Link)) (cutBus_eq _), rfl, rfl, rfl, rfl, rfl, rfl, rfl, rfl, rfl,
    rfl, rfl, bankPins_of_not_live (live_of_inReset rfl)⟩

/-- What RESETn leaves of the port: nothing but the access the host holds, answered. -/
theorem resetAccess_eq (p : Port) :
    resetAccess p = { access := p.access, ack := p.access.isSome, ldo := (resetAccess p).ldo, lerr := (resetAccess p).lerr } := by
  unfold resetAccess
  split
  · rfl
  · split <;> rfl

theorem resetAccess_unanswered_read {p : Port} {a : Access} (ha : p.access = some a) (hack : p.ack = false)
    (hread : a.isWrite = false) : (resetAccess p).ldo = 0 ∧ (resetAccess p).lerr = true := by
  simp [resetAccess, ha, hack, hread]

theorem resetAccess_stands {p : Port} (h : ∀ a, p.access = some a → p.ack = true ∨ a.isWrite = true) :
    (resetAccess p).ldo = p.ldo ∧ (resetAccess p).lerr = p.lerr := by
  unfold resetAccess
  split
  next => exact ⟨rfl, rfl⟩
  next a ha => rw [if_pos (by simpa using h a ha)]; exact ⟨rfl, rfl⟩

theorem cutClaim_free {b : Bank} (h : b.busy = none) (n : Nat) : cutClaim b n = b.words := by simp [cutClaim, h]

theorem cutClaim_busy {b : Bank} {c : BusyClaim} (h : b.busy = some c) (n : Nat) :
    cutClaim b n = bankSetAll b.words (cutWrites b.words c.claim n) := by simp [cutClaim, h]

theorem cutWrites_wordWrite {c : Claim} {w : Option Word} (h : c.op = .wordWrite w) (m : List (Nat × BankWord)) (n : Nat) :
    bankSetAll m (cutWrites m c n) = if n = 0 then m else bankSet m c.first (formWord w) := by
  cases n <;> simp [cutWrites, claimWrites, h, numbered, bankSetAll]

/-- Settles O21: the claim in progress is cut by its kind, and what is not named is as after power-on. -/
theorem resetnResetsAllButItsRecord : Obligations.ResetnResetsAllButItsRecord := by
  intro n s
  have hport := resetAccess_eq s.port
  refine ⟨_, rfl, rfl, rfl, congrArg (fun b => ({ bus := b } : Link)) (cutBus_eq _), rfl, rfl, rfl, rfl, rfl, rfl, rfl, rfl,
    ?causes, ?entries, ?stalled, ?fault, ?access, ?ack, ?read, fun h => resetAccess_stands h, rfl, rfl,
    fun who => by cases who <;> rfl, bankPins_of_not_live (live_of_inReset rfl), fun h => cutClaim_free h n, ?busy⟩
  case causes => cases s.port.entries <;> simp
  case entries => exact congrArg Port.entries hport
  case stalled => exact congrArg Port.stalled hport
  case fault => exact congrArg Port.firstFault hport
  case access => exact (congrArg Port.access hport :)
  case ack => exact congrArg Port.ack hport
  case read => exact fun a ha hack hread => resetAccess_unanswered_read ha hack hread
  case busy =>
    intro b hb
    refine ⟨fun w h => (cutClaim_busy hb n).trans (cutWrites_wordWrite h _ n), fun ws h => ?_, fun g h => ?_, fun h => ?_,
      fun c h => ?_⟩
    all_goals refine (cutClaim_busy hb n).trans ?_; simp [cutWrites, claimWrites, h, bankSetAll]

theorem strapsValid_eq_false {p : StrapPins} (h : p.gs = 0 ∨ p.gs = 7 ∨ p.us = 3 ∨ p.gs.toNat + 2 ≤ p.sn.toNat) :
    strapsValid p = false := by
  simp only [strapsValid, groupSize, ownNo, gsDecode, usDecode]
  obtain h | h | h | h := h
  · simp [h]
  · simp [h]
  · simp [h]
  · by_cases hg : p.gs = 0#3 ∨ p.gs = 7#3
    · rcases hg with hg | hg <;> simp [hg]
    · simp [hg, h]

/-- Settles O22: with valid straps the start of joining on a station without notices queues its HELLO alone. -/
theorem releaseSamplesTheStraps : Obligations.ReleaseSamplesTheStraps := by
  refine ⟨fun pins s hreset hvalid _ hq => ?_, fun pins s hreset hpins => ?_, fun s h => bankPins_of_not_live (live_of_inert h)⟩
  · change execResetRelease pins s = _
    simp only [execResetRelease, hreset, hvalid]
    simp [startJoining, queueNotice, helloNotice, stamp, shownState, hq, smDecode, setAt, State.own, ownNo, State.setMem,
      State.setLink, State.setSweep]
  · change execResetRelease pins s = _
    simp only [execResetRelease, hreset, strapsValid_eq_false hpins]
    rfl

/-! ### Accesses presented -/

section
variable {a : Access} {s : State}

theorem present_inReset (hfree : s.port.access = none) (h : s.inReset = true) :
    present a s = answerAccess a 0 true id (s.setPort { s.port with access := some a }) := by
  simp [present, hfree, h]

theorem present_noLanes (hfree : s.port.access = none) (h : s.inReset = false) (hl : a.lanes = 0) :
    present a s = answerAccess a 0 false id (s.setPort { s.port with access := some a }) := by
  simp [present, hfree, h, hl]

theorem present_sorted (hfree : s.port.access = none) (h : s.inReset = false) (hl : a.lanes ≠ 0) :
    present a s =
      let t := s.setPort { s.port with access := some a }
      let addr := a.addr.toNat
      let word := (addr - Config.windowBase) / 4
      match classOf s.straps addr with
      | .window => answerAccess a (maskLanes a.lanes (windowWord t word)) false (windowWrite word a.lanes a.data) t
      | .inert => answerAccess a 0 true (writeFault (wordAddr addr) .inert) t
      | .range => answerAccess a 0 true (writeFault (wordAddr addr) .range) t
      | .shared =>
        if s.port.entries.length < 8 then takeAccess a t else t.setPort { t.port with stalled := true } := by
  simp only [present, hfree, State.setPort_inReset, h, beq_eq_false_iff_ne.2 hl]
  rfl

end

/-- No window word shows the access the host holds. -/
theorem windowWord_setPort (s : State) (p : Port) (i : Nat) (h : p.firstFault = s.port.firstFault) :
    windowWord (s.setPort p) i = windowWord s i := by
  unfold windowWord
  rw [State.setPort_port, h]
  rfl

/-- Settles O23, row by row of R177. -/
theorem hostReadBySort : Obligations.HostReadBySort := by
  intro addr lanes s hfree held place
  refine ⟨fun h => congrArg _ (present_inReset hfree h), fun h hl => congrArg _ (present_noLanes hfree h hl),
    fun h hl hc => ?window, fun h hl hc => ?fault, fun h hl hc hroom => ?taken, fun h hl hc hroom => ?stalled⟩
  all_goals refine congrArg Host.Outcome.next ((present_sorted hfree h hl).trans ?_)
  case window =>
    simp only [hc, windowWord_setPort]
    rfl
  case fault => obtain hc | hc := hc <;> simp only [hc] <;> rfl
  case taken =>
    simp only [hc, if_pos hroom]
    rfl
  case stalled =>
    simp only [hc, if_neg (Nat.not_lt.2 hroom)]
    rfl

/-- Settles O24, row by row of R177. -/
theorem hostWriteBySort : Obligations.HostWriteBySort := by
  intro addr lanes data s hfree held place fault
  refine ⟨fun h => ?released, fun h hl hc => ?inert, fun h hl hc => ?range, fun h hl hc hroom => ?taken,
    fun h hl hc hroom => ?stalled⟩
  case released =>
    cases hreset : s.inReset with
    | true => exact congrArg _ (present_inReset hfree hreset)
    | false => exact congrArg _ (present_noLanes hfree hreset (h.resolve_left (by simp [hreset])))
  all_goals refine congrArg Host.Outcome.next ((present_sorted hfree h hl).trans ?_)
  case inert | range =>
    simp only [hc]
    rfl
  case taken =>
    simp only [hc, if_pos hroom]
    rfl
  case stalled =>
    simp only [hc, if_neg (Nat.not_lt.2 hroom)]
    rfl

/-! ### Window writes -/

theorem classOf_windowAddr (p : StrapPins) (i : BitVec 6) : classOf p (windowAddr i).toNat = .window := by
  have hi := i.isLt
  refine (classOf_eq_iff p _).1.2 ?_
  simp only [windowAddr, BitVec.toNat_ofNat, Config.windowBase]
  omega

/-- A write to a window word acts on it and is released. -/
theorem present_windowAddr {lanes : Lanes} {data : Word} {s : State} (i : BitVec 6) (hfree : s.port.access = none)
    (h : s.inReset = false) (hl : lanes ≠ 0) :
    let a : Access := { isWrite := true, addr := windowAddr i, lanes := lanes, data := data }
    present a s = releaseWrite (windowWrite i.toNat lanes data (s.setPort { s.port with access := some a })) := by
  intro a
  rw [present_sorted hfree h hl]
  simp only [a, classOf_windowAddr, word_windowAddr, answerAccess, if_true]

theorem laneMask_low (l : Lanes) (n : Nat) (h : n < 8) : (laneMask l).getLsbD n = l.getLsbD 0 := by
  simpa only [Nat.mul_zero, Nat.zero_add] using laneMask_getLsbD l (i := 0) (by decide) h

theorem maskLanes_low (l : Lanes) (w : Word) (n : Nat) (h : n < 8) :
    (maskLanes l w).getLsbD n = (l.getLsbD 0 && w.getLsbD n) := by
  rw [maskLanes, BitVec.getLsbD_and, laneMask_low l n h, Bool.and_comm]

theorem mergeLanes_low (l : Lanes) (new old : Word) (n : Nat) (h : n < 8) :
    (mergeLanes l new old).getLsbD n = if l.getLsbD 0 then new.getLsbD n else old.getLsbD n := by
  have : n < 32 := by omega
  rw [mergeLanes, BitVec.getLsbD_or, BitVec.getLsbD_and, BitVec.getLsbD_and, BitVec.getLsbD_not, laneMask_low l n h]
  cases l.getLsbD 0 <;> simp [this]

theorem causesOf_causesWord (c : Causes) : causesOf (causesWord c) = c := by
  obtain ⟨a, b, c, d, e⟩ := c
  revert a b c d e
  decide

theorem causesOf_maskLanes (l : Lanes) (w : Word) :
    causesOf (maskLanes l w) = {
      fault := l.getLsbD 0 && w.getLsbD 0, view := l.getLsbD 0 && w.getLsbD 1, audit := l.getLsbD 0 && w.getLsbD 2
      rebuildDone := l.getLsbD 0 && w.getLsbD 3, resetLoss := l.getLsbD 0 && w.getLsbD 4 } := by
  simp only [causesOf, maskLanes_low, Nat.reduceLT]

theorem causesOf_mergeLanes (l : Lanes) (new : Word) (c : Causes) :
    causesOf (mergeLanes l new (causesWord c)) = {
      fault := if l.getLsbD 0 then new.getLsbD 0 else c.fault
      view := if l.getLsbD 0 then new.getLsbD 1 else c.view
      audit := if l.getLsbD 0 then new.getLsbD 2 else c.audit
      rebuildDone := if l.getLsbD 0 then new.getLsbD 3 else c.rebuildDone
      resetLoss := if l.getLsbD 0 then new.getLsbD 4 else c.resetLoss } := by
  obtain ⟨fault, view, audit, rebuildDone, resetLoss⟩ := c
  obtain ⟨h0, h1, h2, h3, h4⟩ := Causes.mk.inj (causesOf_causesWord ⟨fault, view, audit, rebuildDone, resetLoss⟩)
  simp only [causesOf, mergeLanes_low, Nat.reduceLT, h0, h1, h2, h3, h4]

/-- Settles O25: the words of the cause flags, of the enables, and any other. -/
theorem windowWritesActOnLaneZero : Obligations.WindowWritesActOnLaneZero := by
  intro lanes data index s hfree hout hl held one enable
  refine ⟨?causes, ?enables, fun hwf => ?other⟩
  case causes =>
    refine congrArg Host.Outcome.next ((present_windowAddr 20 hfree hout hl).trans ?_)
    simp only [windowWrite, clearCauses, causesOf_maskLanes]
    rfl
  case enables =>
    refine congrArg Host.Outcome.next ((present_windowAddr 21 hfree hout hl).trans ?_)
    simp only [windowWrite, writeEnables, causesOf_mergeLanes]
    rfl
  case other =>
    refine congrArg Host.Outcome.next ((present_windowAddr index hfree hout hl).trans ?_)
    have h20 : index.toNat ≠ 20 := fun h => by simp [WellFormed, BitVec.eq_of_toNat_eq (y := 20) h] at hwf
    have h21 : index.toNat ≠ 21 := fun h => by simp [WellFormed, BitVec.eq_of_toNat_eq (y := 21) h] at hwf
    simp only [windowWrite, beq_iff_eq, h20, h21, if_false]
    rfl

/-! ### Window reads -/

theorem toNat_append_eq {v w : Nat} (x : BitVec v) (y : BitVec w) : (x ++ y).toNat = 2 ^ w * x.toNat + y.toNat := by
  rw [BitVec.toNat_append, ← Nat.shiftLeft_add_eq_or_of_lt y.isLt, Nat.shiftLeft_eq, Nat.mul_comm]

/-- A field list read as a number, in a window word. -/
theorem setWidth_eq_ofNat {w : Nat} (x : BitVec w) : x.setWidth 32 = BitVec.ofNat 32 x.toNat :=
  BitVec.eq_of_toNat_eq (by simp)

theorem strapWord_eq (p : StrapPins) :
    strapWord p = BitVec.ofNat 32 (p.sn.toNat + 2 ^ 4 * p.gs.toNat + 2 ^ 8 * p.us.toNat + 2 ^ 10 * p.bs.toNat
      + 2 ^ 12 * p.sm.toNat + 2 ^ 13 * p.ap.toNat + 2 ^ 16 * (!strapsValid p).toNat) := by
  rw [strapWord, setWidth_eq_ofNat]
  congr 1
  simp only [toNat_append_eq, BitVec.toNat_ofBool, BitVec.toNat_ofNat]
  omega

theorem stateWord_eq {code : Nat} (h : code < 8) (inc : BitVec 4) (mode : JoinMode) (present : Bool) :
    stateWord code inc mode present = BitVec.ofNat 32 (code + 2 ^ 4 * inc.toNat + 2 ^ 8 * (decide (mode = .warm)).toNat
      + 2 ^ 15 * present.toNat) := by
  have hmode : (mode == .warm) = decide (mode = .warm) := by cases mode <;> rfl
  rw [stateWord, setWidth_eq_ofNat, hmode]
  congr 1
  simp only [toNat_append_eq, BitVec.toNat_ofBool, BitVec.toNat_ofNat, Nat.mod_eq_of_lt h]
  omega

theorem causesWord_eq (c : Causes) :
    causesWord c = BitVec.ofNat 32 (c.fault.toNat + 2 * c.view.toNat + 4 * c.audit.toNat + 8 * c.rebuildDone.toNat
      + 16 * c.resetLoss.toNat) := by
  rw [causesWord, setWidth_eq_ofNat]
  congr 1
  simp only [toNat_append_eq, BitVec.toNat_ofBool]
  omega

theorem OwnState.code_lt (x : OwnState) : x.code < 8 := by cases x <;> decide

theorem ViewState.code_lt (x : ViewState) : x.code < 8 := by cases x <;> decide

theorem windowWord_view (s : State) {j : Nat} (h : j < 8) :
    windowWord s (2 + j) =
      if s.mem.ownState ≠ .inert ∧ j < s.n then
        BitVec.ofNat 32 ((viewAt s j).state.code + 2 ^ 4 * (viewAt s j).inc.toNat
          + 2 ^ 8 * (decide ((viewAt s j).mode = .warm)).toNat + 2 ^ 15)
      else 0 := by
  have hview : windowWord s (2 + j) = viewWord s j := by
    have h0 : 2 + j ≠ 0 := by omega
    have h1 : 2 + j ≠ 1 := by omega
    have h9 : 2 + j ≤ 9 := by omega
    simp only [windowWord, beq_iff_eq, h0, h1, h9, if_true, if_false, Nat.add_sub_cancel_left]
  rw [hview, viewWord, stateWord_eq (ViewState.code_lt _)]
  simp

theorem windowWord_unused (s : State) {i : Nat} (h : 22 ≤ i) : windowWord s i = 0 := by
  have hne : ∀ k, k < 22 → i ≠ k := fun k hk => by omega
  have h9 : ¬ i ≤ 9 := by omega
  simp [windowWord, hne, h9]

theorem attention_iff (s : State) : attention s = true ↔ causesWord s.causes &&& causesWord s.enables ≠ 0 := by
  unfold attention
  generalize s.causes = c, s.enables = e
  obtain ⟨a, b, c, d, f⟩ := c
  obtain ⟨a', b', c', d', f'⟩ := e
  revert a b c d f a' b' c' d' f'
  decide

/-- Settles O26, word by word; the attention output over the thousand settings of causes and enables. -/
theorem windowReadsAsLaidOut : Obligations.WindowReadsAsLaidOut := by
  refine ⟨fun s => ⟨strapWord_eq _, ?own, fun j hj => windowWord_view s hj, rfl, fun h => ?empty, fun a k h => ?fault,
    causesWord_eq _, causesWord_eq _, fun i hi => windowWord_unused s hi⟩, attention_iff⟩
  case own =>
    refine (stateWord_eq s.mem.ownState.code_lt _ _ _).trans ?_
    simp
  case empty | fault => constructor <;> simp [windowWord, h]

end Sys2Proof.Machine
end

section
/-! PROOFS. The local request queue, and the small commands of the sweep unit and the membership (R49, R50, R56, R155,
R178, R180, R181, R194). -/

namespace Sys2Proof.Machine

/-! ### The local request queue -/

/-- The oldest WAITING entry that no earlier entry of its word holds back is the one that may start. -/
theorem startable_append (e : LocalEntry) (back : List LocalEntry) (hwait : e.phase = .waiting) :
    ∀ (front : List LocalEntry) (seen : List Nat) (i : Nat), e.addr ∉ seen → (∀ x ∈ front, x.addr ≠ e.addr) →
      (∀ (a b : List LocalEntry) (x : LocalEntry), front = a ++ x :: b → x.phase = .waiting →
        x.addr ∈ seen ∨ ∃ y ∈ a, y.addr = x.addr) →
      startable seen i (front ++ e :: back) = some (i + front.length)
  | [], seen, i, hseen, _, _ => by simp [startable, hwait, hseen]
  | x :: front, seen, i, hseen, hother, hbehind => by
    have hx : ¬ (x.phase = .waiting ∧ x.addr ∉ seen) := fun h =>
      (hbehind [] front x rfl h.1).elim h.2 (by simp)
    have hrest := startable_append e back hwait front (x.addr :: seen) (i + 1)
      (by simpa [hseen, eq_comm] using hother x (by simp)) (fun y hy => hother y (by simp [hy])) fun a b y hy hw => by
        rcases hbehind (x :: a) b y (by simp [hy]) hw with h | ⟨z, hz, h⟩
        · exact .inl (by simp [h])
        · rcases List.mem_cons.1 hz with rfl | hz
          · exact .inl (by simp [h])
          · exact .inr ⟨z, hz, h⟩
    rw [List.cons_append, startable, if_neg (by simpa using hx), hrest, List.length_cons]
    congr 1
    omega

/-- Settles O27; the entry that starts is found by `startable_append`. -/
theorem accessesGoOn : Obligations.AccessesGoOn := by
  refine ⟨⟨fun a s ha hstalled hroom => ?taken, fun s hack => ?release⟩, ?start⟩
  case taken =>
    change execStalledAccessTaken s = _
    simp only [execStalledAccessTaken, ha, hstalled, Config.localPlaces, hroom, decide_true, Bool.and_self, if_true]
    cases hw : a.isWrite <;> simp [takeAccess, entryOf, releaseWrite, hw, State.setPort, ha]
  case release => exact if_pos hack
  case start =>
    intro front back e s hentries hserving hcount hwait hother hbehind
    have hfound : startable [] 0 s.port.entries = some front.length := by
      rw [hentries]
      refine (startable_append e back hwait front [] 0 (by simp) hother fun a b x h hx => .inr (hbehind a b x h hx)).trans ?_
      rw [Nat.zero_add]
    have hstarted : startedCount s < Config.startedLimit := hcount
    have hat : s.port.entries[front.length]? = some e := by simp [hentries]
    change execEntryStart s = _
    simp only [execEntryStart, hserving, hstarted, decide_true, Bool.and_self, if_true, hfound, hat]
    cases hw : e.isWrite <;>
      simp [addAsk, firstAsk, hw, hentries, setAt, State.setPort, State.setTu, State.n]

/-! ### The head of the inbound queue and its answer -/

theorem sameRecord_of_fixed {s t : State} (h : t.fixed = s.fixed) : sameRecord s t := by
  unfold sameRecord
  simpa only [State.fixed, Prod.mk.injEq] using h

theorem beq_eq_decide_eq {α : Type} [DecidableEq α] (a b : α) : (a == b) = decide (a = b) := by
  by_cases h : a = b <;> simp [h]

theorem bne_eq_decide {α : Type} [DecidableEq α] (a b : α) : (a != b) = decide (a ≠ b) := by
  by_cases h : a = b <;> simp [h]

section
variable {m : Msg} {rest : List Msg} {s : State} {j : Nat}

theorem popInbound_cons (h : s.link.inbound = m :: rest) :
    popInbound s = s.setLink { s.link with inbound := rest, waiters := s.link.waiters.filter (· ≠ .head) } := by
  simp only [popInbound, h, List.drop_succ_cons, List.drop_zero, bne_eq_decide]

theorem inboundOf_cons (hlive : live s = true) (h : s.link.inbound = m :: rest) : inboundOf m.kind s = some m := by
  simp [inboundOf, hlive, h]

theorem answerHead_admitted (hd : m.dest = .station j) (hv : (viewAt s j).state.available = true) :
    answerHead m s = pushReply { msg := m } (filterDone m s) := by
  rw [answerHead, replyDropped_of_available hd hv, if_neg Bool.false_ne_true]

theorem answerHead_refused (hd : m.dest = .station j) (hk : m.kind ≠ .helloRsp)
    (hv : (viewAt s j).state.available = false) : answerHead m s = filterDone m s := by
  rw [answerHead, replyDropped_of_unavailable hd hk hv, if_pos rfl]

end

/-- A message as the link of this station stamps it. -/
theorem pushReply_eq (m : Msg) (s : State) :
    pushReply { msg := m } s = s.setLink { s.link with replies := { s.link.replies with
      q := s.link.replies.q ++ [{ msg := { m with
        source := s.own, sState := shownState s.mem.ownState, sInc := s.mem.ownInc } }] } } := rfl

/-! ### Membership -/

theorem stateEntry_eq (v : ViewEntry) (m : Msg) :
    stateEntry v m =
      let x := m.nState.toView
      if v.state = .joining ∧ v.inc = m.sInc ∧ (x = .rebuilding ∨ x = .active) then { v with state := x }
      else if v.state = .rebuilding ∧ v.inc = m.sInc ∧ x = .active then { v with state := .active }
      else if v.state = .absent then { v with state := x, inc := m.sInc }
      else v := by
  unfold stateEntry
  cases v.state with
  | joining | rebuilding => cases m.nState <;> simp [PeerState.toView]
  | absent | active | failed => simp

/-- Settles O35. -/
theorem joinReportsMoveTheRecord : Obligations.JoinReportsMoveTheRecord := by
  refine ⟨fun m rest s hinbox hk => ?response, fun m rest s hlive hin hk => ?state⟩
  case response =>
    have hexec : exec .helloRsp s = execHelloRsp s := rfl
    rw [hexec]
    simp only [execHelloRsp, hinbox, hk, bne_self_eq_false, Bool.false_eq_true, if_false, State.setLink_mem, beq_iff_eq]
    refine ⟨fun hopen => ?_, fun hclosed => if_pos hclosed⟩
    refine ⟨_, if_neg hopen, fun e => ?_, rfl⟩
    simp [and_comm, or_comm]
  case state =>
    intro v x v'
    have hv' : stateEntry v m = v' := stateEntry_eq v m
    refine ⟨causeView (v'.state != v.state) (setView m.source v' (popInbound s)), ?_, ?_⟩
    · change execState s = _
      simp only [execState, ← hk, inboundOf_cons hlive hin]
      rw [← hv']
    · refine ⟨?_, ?_, ?_⟩
      · simp [setView, setAt]
      · simp [causeView, bne_eq_decide]
      · simp [popInbound_cons hin, sameRecord_of_fixed]

theorem shownState_not_serving {x : OwnState} (h : x = .joining ∨ x = .filling) : shownState x = .joining := by
  rcases h with rfl | rfl <;> rfl

/-- Settles O39. -/
theorem joiningAnswersNotReady : Obligations.JoiningAnswersNotReady := by
  intro m rest s hin hk hlive hstate hplace reply
  have hjoins : (s.mem.ownState == .joining || s.mem.ownState == .filling) = true := by simpa using hstate
  have hdone : ∀ t, filterDone (notReadyTo m) t = t := filterDone_of_not_final rfl
  change execJoiningNotReady s = _
  simp only [execJoiningNotReady, hin, hk, hlive, hjoins, hplace, Bool.and_self, if_true]
  cases hv : (viewAt s m.source).state.available with
  | true =>
    rw [answerHead_admitted rfl (by simpa [viewAt] using hv), hdone, pushReply_eq, popInbound_cons hin]
    simp [notReadyTo, reply, shownState_not_serving hstate, State.setLink, State.own]
  | false =>
    rw [answerHead_refused rfl (by simp [notReadyTo]) (by simpa [viewAt] using hv), hdone, popInbound_cons hin]
    simp

/-! ### The sweep unit's audit pointer -/

/-- Settles O60. -/
theorem auditResultsMovePointer : Obligations.AuditResultsMovePointer := fun _ => ⟨rfl, rfl, rfl, rfl⟩

/-! ### The filter -/

theorem filterVerdict_of_find {fl : List FilterEntry} {m : Msg} {e : FilterEntry}
    (h : filterFind fl m.source m.tag = some e) :
    filterVerdict fl m = if e.seq ≠ m.seq then .new else
      match e.state with
      | .inProgress true => .repeatHold
      | .inProgress false => .discard
      | .done none => .new
      | .done (some c) => if m.kind = e.kind then .repeatReply c else .new := by
  simp only [filterVerdict, h, bne_iff_ne, beq_iff_eq] <;> rfl

theorem filterFind_some {fl : List FilterEntry} {src tag : Nat} {e : FilterEntry} (h : filterFind fl src tag = some e) :
    e ∈ fl ∧ e.src = src ∧ e.tag = tag := by
  refine ⟨List.mem_of_find?_eq_some h, ?_⟩
  simpa using List.find?_some h

/-- The entry that answers a repeat from the cache is DONE. -/
theorem done_of_repeatReply {fl : List FilterEntry} {m : Msg} {c : Cached} (h : filterVerdict fl m = .repeatReply c) :
    ∃ e, filterFind fl m.source m.tag = some e ∧ e.state = .done (some c) := by
  cases hf : filterFind fl m.source m.tag with
  | none => simp [filterVerdict, hf] at h
  | some e =>
    refine ⟨e, rfl, ?_⟩
    rw [filterVerdict_of_find hf] at h
    split at h
    next => cases h
    next =>
      split at h
      next => cases h
      next => cases h
      next => cases h
      next d hd =>
        split at h
        next => rw [hd, FilterVerdict.repeatReply.inj h]
        next => cases h

/-- The filter holds at most one entry of a source and a tag (R77). -/
theorem filterKey_unique {l : List FilterEntry} (h : l.Pairwise fun a b => ¬(a.src = b.src ∧ a.tag = b.tag))
    {x y : FilterEntry} (hx : x ∈ l) (hy : y ∈ l) (hs : x.src = y.src) (ht : x.tag = y.tag) : x = y := by
  induction l with
  | nil => cases hx
  | cons z l ih =>
    obtain ⟨hz, hl⟩ := List.pairwise_cons.1 h
    rcases List.mem_cons.1 hx with rfl | hxl
    · rcases List.mem_cons.1 hy with rfl | hyl
      · rfl
      · exact absurd ⟨hs, ht⟩ (hz y hyl)
    · rcases List.mem_cons.1 hy with rfl | hyl
      · exact absurd ⟨hs.symm, ht.symm⟩ (hz x hxl)
      · exact ih hl hxl hyl

/-- A request whose only entry is DONE finds nothing to change (R79). -/
theorem filterStep_of_done {s : State} {e : FilterEntry} {c : Option Cached} {src tag : Nat} (hkeyed : s.Keyed)
    (hf : filterFind s.filter src tag = some e) (hdone : e.state = .done c) (seq : Bool) (st : FilterState) :
    filterStep src tag seq st s = s := by
  have hkeep : (filterStep src tag seq st s).filter = s.filter := by
    rw [filterStep_filter]
    refine (List.map_congr_left fun x hx => ?_).trans (List.map_id _)
    obtain ⟨hmem, hsrc, htag⟩ := filterFind_some hf
    refine if_neg fun ⟨hxs, hxt, _, hprog⟩ => ?_
    have hxe : x = e := filterKey_unique hkeyed.filter hx hmem (hxs.trans hsrc.symm) (hxt.trans htag.symm)
    simp [hxe, hdone] at hprog
  calc filterStep src tag seq st s = s.setFilter (filterStep src tag seq st s).filter := rfl
    _ = s := by rw [hkeep]; rfl

/-- Settles O40. -/
theorem repeatsAreAnsweredByTheFilter : Obligations.RepeatsAreAnsweredByTheFilter := by
  refine ⟨fun fl m => ⟨fun h => by simp [filterVerdict, h], fun e he => ?verdicts⟩, fun m rest s hin hk hserving => ?answers⟩
  case verdicts =>
    rw [filterVerdict_of_find he]
    refine ⟨filterFind_some he, fun h => if_pos h, fun h => ?_, fun c h hne => ?_, fun hs h => ?_, fun hs h => ?_,
      fun c hs h hk => ?_⟩
    all_goals simp_all
  case answers =>
    intro left answer
    have hpop : popInbound s = s.setLink left := popInbound_cons hin
    have hcached : ∀ c, filterVerdict s.filter m = .repeatReply c → s.Keyed →
        filterDone { kind := c.kind, dest := .station m.source, tag := m.tag, seq := m.seq, status := c.status,
                     f := { payload := c.word.toList } } (s.setLink left) = s.setLink left := fun c hv hkeyed => by
      obtain ⟨e, he, hdone⟩ := done_of_repeatReply hv
      have hk' : (s.setLink left).Keyed := ⟨hkeyed.filter, hkeyed.table, hkeyed.repair, hkeyed.notices⟩
      simp only [filterDone]
      split
      · exact filterStep_of_done hk' he hdone _ _
      · rfl
    refine ⟨fun hv => ?_, fun hv hplace hav => ?_, fun c hv hplace hav hkeyed => ?_, fun hv hplace hav => ?_,
      fun c hv hplace hav hnot hkeyed => ?_⟩
    all_goals change execFilterRepeat s = _
    all_goals simp only [execFilterRepeat, hin, hk, hserving, hv, Bool.and_self, if_true, hpop]
    · rw [if_pos hplace, answerHead_admitted (s := s.setLink left) rfl hav, filterDone_of_not_final rfl, pushReply_eq]
      rfl
    · rw [if_pos hplace, answerHead_admitted (s := s.setLink left) rfl hav, hcached c hv hkeyed, pushReply_eq]
      rfl
    · rw [if_pos hplace, answerHead_refused (s := s.setLink left) rfl (by simp) hav, filterDone_of_not_final rfl]
    · rw [if_pos hplace, answerHead_refused (s := s.setLink left) rfl hnot hav, hcached c hv hkeyed]

end Sys2Proof.Machine
end

section
/-! PROOFS. The holder: requests taken, requests turned away, and the answer from the words read (R75, R78, R108 to R111,
R124 to R126, R148, R158, R160). -/

namespace Sys2Proof.Machine

/-! ### Replies to a requester -/

section
variable {m : Msg} {s : State} {src tag : Nat} {seq : Bool}

/-- A final reply writes DONE into the entry of its request (R79). -/
theorem filterDone_final (hk : m.kind.isFinal = true) (hd : m.dest = .station src) :
    filterDone m s = s.setFilter (doneWith s src m.tag m.seq (cacheOf m)) := by
  simp only [filterDone, hk, hd, if_true]
  exact congrArg s.setFilter (filterStep_filter ..)

theorem filterPark_peer : filterPark (.peer src tag seq) true s = s.setFilter (parkedWith s src tag seq) :=
  congrArg s.setFilter (filterStep_filter ..)

theorem pushReply_replyTo (s : State) (src tag : Nat) (seq : Bool) (m : Msg) :
    pushReply { msg := { m with dest := .station src, tag := tag, seq := seq } } s =
      s.setLink { s.link with replies := { s.link.replies with q := s.link.replies.q ++ [replyTo s src tag seq m] } } := rfl

/-- The first answer to a peer the view admits is queued in the place it has. -/
theorem firstAnswer_peer (hk : m.kind.isFinal = false) (hv : (viewAt s src).state.available = true) :
    firstAnswer (.peer src tag seq) m s =
      s.setLink { s.link with replies := { s.link.replies with q := s.link.replies.q ++ [replyTo s src tag seq m] } } := by
  rw [firstAnswer, answerHead_admitted, filterDone_of_not_final, pushReply_replyTo]
  · exact hk
  · rfl
  · exact hv

/-- A final first answer is cached too. -/
theorem firstAnswer_peer_final (hk : m.kind.isFinal = true) (hv : (viewAt s src).state.available = true) :
    firstAnswer (.peer src tag seq) m s =
      (s.setFilter (doneWith s src tag seq (cacheOf m))).setLink
        { s.link with replies := { s.link.replies with q := s.link.replies.q ++ [replyTo s src tag seq m] } } := by
  rw [firstAnswer, answerHead_admitted, filterDone_final, pushReply_replyTo]
  · rfl
  · exact hk
  · rfl
  · rfl
  · exact hv

end

/-- Settles O43, each kind by the goodness of the word read. -/
theorem holderAnswersFromWhatItRead : Obligations.HolderAnswersFromWhatItRead := by
  intro f old ws
  refine ⟨fun h => ?_, fun h => ?_, ?_, fun h => ?_, fun h hl => ?_, fun h => ?_, fun h => ?_, fun h hl => ?_, fun h hl => ?_,
    rfl, rfl⟩
  case refine_6 =>
    have hbad : isGood old = false := by
      refine Bool.eq_false_iff.2 fun hgood => ?_
      rw [isGood_iff] at hgood
      rw [← Bool.not_eq_true, goodIn_iff] at h
      exact h fun i hi _ => hgood i hi
    simp [holderAnswer, hbad, h]
  case refine_9 =>
    have hne : ¬ f.lanes = 0#4 := h
    simp [holderAnswer, hne, hl]
  all_goals simp [holderAnswer, offersRepair, *]

/-! ### Requests taken -/

/-- A request of kind `k` the holder is free to take, and the state it leaves: the inbound head with its reply's place, its
filter entry written, or the first hand-off. -/
def Offered (via : Via) (who : Requester) (k : Kind) (f : Fields) (left s : State) : Prop :=
  (via = .inbound ∧ headPlace s = true ∧ ∃ m rest, s.link.inbound = m :: rest ∧ m.kind = k ∧ m.f = f ∧
      filterVerdict s.filter m = .new ∧ who = .peer m.source m.tag m.seq ∧
      left = { s with
        link := { s.link with inbound := rest, waiters := s.link.waiters.filter (· ≠ .head) }
        filter := s.filter.filter (fun e => !(e.src = m.source ∧ e.tag = m.tag)) ++
          [{ src := m.source, tag := m.tag, seq := m.seq, kind := m.kind, state := .inProgress false }] }) ∨
    (via = .own ∧ ∃ n rest, s.holder.handoffs = n :: rest ∧ (slotAt s n).kind = k ∧ (slotAt s n).f = f ∧
      who = .own n ∧ left = { s with holder := { s.holder with handoffs := rest } })

section
variable {k : Kind} {direct : Bool} {s : State}

theorem holderRequest_inbound {m : Msg} {rest : List Msg} (hserving : serving s = true) (hidle : s.holder.work = none)
    (hin : s.link.inbound = m :: rest) (hfit : fitsStore m.kind direct m.f = true) (hnew : filterVerdict s.filter m = .new)
    (hheld : heldBack s m.f.stripe = false) :
    holderRequest m.kind direct .inbound s = some (.peer m.source m.tag m.seq, m.f) := by
  simp [holderRequest, hserving, hidle, hin, hfit, hnew, hheld]

theorem holderRequest_own {n : Nat} {rest : List Nat} (hserving : serving s = true) (hidle : s.holder.work = none)
    (hhand : s.holder.handoffs = n :: rest) (hfit : fitsStore (slotAt s n).kind direct (slotAt s n).f = true)
    (hheld : heldBack s (slotAt s n).f.stripe = false) :
    holderRequest (slotAt s n).kind direct .own s = some (.own n, (slotAt s n).f) := by
  simp [holderRequest, hserving, hidle, hhand, hfit, hheld]

theorem filterTake_eq (m : Msg) (s : State) :
    filterTake m s = s.setFilter (s.filter.filter (fun e => !(e.src = m.source ∧ e.tag = m.tag)) ++
      [{ src := m.source, tag := m.tag, seq := m.seq, kind := m.kind, state := .inProgress false }]) := by
  simp only [filterTake, Bool.decide_and, beq_eq_decide_eq]

/-- The holder takes what is offered to it, when the stripe is not stale (R108). -/
theorem holderTake_offered {via : Via} {who : Requester} {f : Fields} {left : State} (hserving : serving s = true)
    (hidle : s.holder.work = none) (hstale : stale s f.stripe = false) (hheld : heldBack s f.stripe = false)
    (hoffer : Offered via who k f left s) (hfit : fitsStore k direct f = true) :
    holderTake k direct via s = holderBegin who k f left := by
  rcases hoffer with ⟨rfl, hplace, m, rest, hin, rfl, rfl, hnew, rfl, rfl⟩ | ⟨rfl, n, rest, hhand, rfl, rfl, rfl, rfl⟩
  · simp only [holderTake, holderRequest_inbound hserving hidle hin hfit hnew hheld, hplace, hstale, BEq.rfl, Bool.not_true,
      Bool.and_false, Bool.false_eq_true, if_false, takeInFilter, filterTake_eq, holderPop, popInbound_cons hin]
    rfl
  · simp only [holderTake, holderRequest_own hserving hidle hhand hfit hheld, hstale, reduceCtorEq, beq_iff_eq,
      Bool.and_eq_true, false_and, if_false, takeInFilter, holderPop, hhand, List.erase_cons_head, Bool.false_eq_true]
    rfl

end

theorem holderBegin_eq {via : Via} {who : Requester} {k : Kind} {f : Fields} {left s : State}
    (hoffer : Offered via who k f left s) :
    holderBegin who k f left = { left with
      holder := { left.holder with work := some { who := who, kind := k, f := f } }
      bank := { s.bank with holderDue := s.bank.holderDue ++ [{
        first := f.stripe * s.w + f.offset, op := (holderClaim s k f).op, work := .holder }] } } := by
  rcases hoffer with ⟨-, -, m, rest, -, -, -, -, -, rfl⟩ | ⟨-, n, rest, -, -, -, -, rfl⟩ <;> rfl

/-- Settles O41: the request offered is taken, and its claim is the one of its kind. -/
theorem holderTakesRequests : Obligations.HolderTakesRequests := by
  intro via who k f left s hserving hidle hstale hheld hoffer taken
  have htaken : ∀ direct, fitsStore k direct f = true →
      holderTake k direct via s = taken (holderClaim s k f).op := fun direct hfit =>
    (holderTake_offered hserving hidle hstale hheld hoffer hfit).trans (holderBegin_eq hoffer)
  refine ⟨fun h => ?_, fun h => ?_, fun h => ?_, fun h hl => ?_, fun h hl => ?_, fun h => ?_⟩ <;> subst h
  case refine_4 => exact congrArg _ ((htaken false (by simp [fitsStore, hl])).trans (by simp [holderClaim, hl]))
  case refine_5 =>
    have hne : ¬ f.lanes = 0#4 := hl
    refine congrArg _ ((htaken true (by simp [fitsStore, hne])).trans ?_)
    simp [holderClaim, hne]
  all_goals exact congrArg _ (htaken false rfl)

/-! ### Requests turned away -/

/-- Settles O42: a stale stripe's request is answered NOT_READY; that of the stripe being stored is not offered. -/
theorem staleStripesAreNotServed : Obligations.StaleStripesAreNotServed := by
  refine ⟨fun m rest s c hserving hidle hin hnew hheld hplace hreb hptr hav hkind => ?stale,
    fun m rest s hin hreb hstoring hptr => ?back⟩
  case stale =>
    have hstale : stale s m.f.stripe = true := by simp [stale, hreb, hptr]
    have hturned : ∀ direct, fitsStore m.kind direct m.f = true → holderTake m.kind direct .inbound s =
        firstAnswer (.peer m.source m.tag m.seq) { kind := .notReady } (popInbound s) := fun direct hfit => by
      simp only [holderTake, holderRequest_inbound hserving hidle hin hfit hnew hheld, hplace, hstale, Bool.not_true,
        Bool.and_false, Bool.false_eq_true, if_false, if_true, holderPop]
    have hanswer : firstAnswer (.peer m.source m.tag m.seq) { kind := .notReady } (popInbound s) = s.setLink { s.link with
        inbound := rest, waiters := s.link.waiters.filter (· ≠ .head)
        replies := { s.link.replies with q := s.link.replies.q ++ [{ msg :=
          { kind := .notReady, source := s.own, dest := .station m.source, sState := .rebuilding, sInc := s.mem.ownInc,
            tag := m.tag, seq := m.seq } }] } } := by
      rw [popInbound_cons hin, firstAnswer_peer]
      · simp [replyTo, hreb, shownState, State.setLink, State.own]
      · rfl
      · exact hav
    have hdirect : ∀ direct, m.kind = .store → (m.f.lanes != 0) = direct → fitsStore m.kind direct m.f = true := by
      rintro direct hk rfl
      simp [fitsStore]
    rw [← hanswer]
    simp only [Prod.mk.injEq] at hkind
    rcases hkind with ⟨hk, rfl⟩ | ⟨hk, rfl⟩ | ⟨hk, rfl⟩ | ⟨hk, rfl⟩ | ⟨hl, hk, rfl⟩ | ⟨hl, hk, rfl⟩
    case inr.inr.inr.inr.inl => exact congrArg _ (hk ▸ hturned false (hdirect _ hk (by simp [hl])))
    case inr.inr.inr.inr.inr => exact congrArg _ (hk ▸ hturned true (hdirect _ hk (by simpa using hl)))
    all_goals exact congrArg _ (hk ▸ hturned false (by simp [fitsStore, hk]))
  case back =>
    have hheld : heldBack s m.f.stripe = true := by simp [heldBack, hreb, hstoring, hptr]
    have hnone : ∀ k direct, holderTake k direct .inbound s = s := fun k direct => by
      have : holderRequest k direct .inbound s = none := by simp [holderRequest, hin, hheld]
      simp only [holderTake, this]
    exact ⟨congrArg _ (hnone _ _), congrArg _ (hnone _ _), congrArg _ (hnone _ _), congrArg _ (hnone _ _),
      congrArg _ (hnone _ _), congrArg _ (hnone _ _)⟩

end Sys2Proof.Machine
end

section
/-! PROOFS. The home's requests: answered at once, parked, issued as member writes, and released (R75, R78, R79, R83 to R91,
R97, R141, R147, R162). -/

namespace Sys2Proof.Machine

/-! ### Requests the home weighs -/

section
variable {s : State} {m : Msg} {rest : List Msg}

theorem admissionDue_eq_false (hu : urgentDue s = false) (hr : recomputeDue s = false) : admissionDue s = false := by
  simp [admissionDue, hu, hr]

theorem homeRequest_inbound (hserving : serving s = true) (hdue : admissionDue s = false) (hin : s.link.inbound = m :: rest)
    (hnew : filterVerdict s.filter m = .new) :
    homeRequest m.kind .inbound s = some (.peer m.source m.tag m.seq, m.f) := by
  simp [homeRequest, hserving, hdue, hin, hnew]

theorem homeRequest_own {n : Nat} {tail : List Nat} (hserving : serving s = true) (hdue : admissionDue s = false)
    (hhand : s.home.handoffs = n :: tail) :
    homeRequest (slotAt s n).kind .own s = some (.own n, (slotAt s n).f) := by
  simp [homeRequest, hserving, hdue, hhand]

theorem inPlace_own (g : State → State) : inPlace .own g s = g s := rfl

theorem inPlace_inbound (hplace : headPlace s = true) (g : State → State) : inPlace .inbound g s = g s := by
  simp [inPlace, hplace]

end

/-! ### Answers to an own slot (R75) -/

section
variable {s : State} {n : Nat}

theorem ownReply_hold (hf : (slotAt s n).inFlight = true) :
    ownReply n { kind := .hold } s = setSlot n { (slotAt s n).turned .held with attempts := 0 } s := by
  simp [ownReply, hf, Slot.stopped, Slot.turned]

theorem ownReply_busy (hf : (slotAt s n).inFlight = true) :
    ownReply n { kind := .busy } s = setSlot n { (slotAt s n).turned .backoff with
      attempts := 0, busyCount := min ((slotAt s n).busyCount + 1) 8
      backoff := some (5 * min ((slotAt s n).busyCount + 1) 8) } s := by
  simp [ownReply, hf, Slot.stopped, Slot.turned, Config.busyLimit, Config.busyUnit]

theorem ownReply_final {m : Msg} {addr : Nat} (hf : (slotAt s n).inFlight = true) (ho : (slotAt s n).owner = some (.port addr))
    (hk : m.kind.isFinal = true) : ownReply n m s = portOutcome addr (.replied m) (endSlot n s) := by
  simp only [ownReply, hf, ho, Bool.not_true, Bool.false_eq_true, if_false]
  cases hkind : m.kind <;> simp_all [Kind.isFinal]

theorem SlotFreed.of_tu {t : State} (h : SlotFreed s n) (htu : t.tu = s.tu) : SlotFreed t n := by
  simpa only [SlotFreed, slotAt, htu] using h

theorem slotFreed_endSlot (h : n < s.tu.slots.length) : SlotFreed (endSlot n s) n := by
  have hslot := endSlot_slot h
  exact ⟨congrArg Slot.state hslot, congrArg Slot.owner hslot, congrArg Slot.response hslot, congrArg Slot.held hslot,
    congrArg Slot.backoff hslot⟩

theorem startedEntry_addr {addr : Nat} {e : LocalEntry} (h : startedEntry s addr = some e) : e.addr = addr := by
  have := List.find?_some h
  simp_all

theorem portOutcome_write {addr : Nat} {e : LocalEntry} (he : startedEntry s addr = some e) (hw : e.isWrite = true)
    (o : Outcome) : portOutcome addr o s = writeOutcome e o s := by
  simp [portOutcome, he, hw]

theorem portOutcome_read {addr : Nat} {e : LocalEntry} (he : startedEntry s addr = some e) (hw : e.isWrite = false)
    (o : Outcome) : portOutcome addr o s = readOutcome e o s := by
  simp [portOutcome, he, hw]

theorem finishWriteLost_eq (e : LocalEntry) (s : State) :
    finishWriteLost e s = { s with
      port := { entryLeft s e.addr with firstFault := s.port.firstFault <|> some (e.addr, .lost) }
      counters := { s.counters with writeFaults := min (s.counters.writeFaults + 1) 65535 }
      causes := { s.causes with fault := true } } := rfl

theorem finishWrite_eq (e : LocalEntry) (s : State) : finishWrite e s = s.setPort (entryLeft s e.addr) := rfl

end

/-! ### Parking -/

/-- A request just taken and parked has the one entry of its pair, IN_PROGRESS and parked (R78, R79). -/
theorem filterPark_filterTake (m : Msg) (s : State) :
    filterPark (.peer m.source m.tag m.seq) true (filterTake m s) =
      s.setFilter (s.filter.filter (fun e => !(e.src = m.source ∧ e.tag = m.tag)) ++
        [{ src := m.source, tag := m.tag, seq := m.seq, kind := m.kind, state := .inProgress true }]) := by
  rw [filterPark_peer, filterTake_eq]
  refine congrArg s.setFilter ?_
  simp only [parkedWith, State.setFilter_filter, List.map_append, List.map_cons, List.map_nil]
  refine congr (congrArg (· ++ ·) ((List.map_congr_left fun e he => if_neg fun h => ?_).trans (List.map_id _))) (by simp)
  simp [h.1, h.2.1] at he

/-- A peer's request parked: its place taken, its filter entry parked, HOLD queued, and the home settled (R79). -/
theorem parkRequest_peer {m : Msg} {rest : List Msg} {p : Place} {s : State} (hin : s.link.inbound = m :: rest)
    (hwho : p.who = .peer m.source m.tag m.seq) (hv : (viewAt s m.source).state.available = true) :
    parkRequest m.kind p s = { s with
      home := (settle (takePlace p s)).home
      filter := s.filter.filter (fun e => !(e.src = m.source ∧ e.tag = m.tag)) ++
        [{ src := m.source, tag := m.tag, seq := m.seq, kind := m.kind, state := .inProgress true }]
      link := { s.link with
        inbound := rest, waiters := s.link.waiters.filter (· ≠ .head)
        replies := { s.link.replies with
          q := s.link.replies.q ++ [replyTo s m.source m.tag m.seq { kind := .hold }] } } } := by
  have htake : takeInFilter m.kind p.who (homePop p.who s) = filterTake m (popInbound s) := by rw [hwho]; rfl
  have hswap : ∀ t, filterPark p.who true (takePlace p (filterTake m t)) =
      takePlace p (filterPark p.who true (filterTake m t)) := fun t => by rw [hwho]; rfl
  rw [parkRequest, htake, hswap, hwho, filterPark_filterTake, popInbound_cons hin, firstAnswer_peer]
  · rfl
  · rfl
  · exact hv

/-- A self-addressed request parked: its own slot HELD with no timer, its place taken, and the home settled (R75). -/
theorem parkRequest_own {n : Nat} {tail : List Nat} {p : Place} {s : State} (k : Kind) (hhand : s.home.handoffs = n :: tail)
    (hwho : p.who = .own n) (hf : (slotAt s n).inFlight = true) :
    parkRequest k p s = { s with
      home := (settle (takePlace p (s.setHome { s.home with handoffs := tail }))).home
      tu := { s.tu with slots := s.tu.slots.set n { (slotAt s n).turned .held with attempts := 0 } } } := by
  simp only [parkRequest, hwho, takeInFilter, homePop, filterPark, firstAnswer, hhand, List.drop_succ_cons, List.drop_zero]
  rw [ownReply_hold]
  · rfl
  · exact hf

theorem settle_takePlace_pool (p : Place) (s : State) : (settle (takePlace p s)).home.pool = s.home.pool ++ [p] :=
  takePlace_pool p s

theorem settle_takePlace_handoffs (p : Place) (s : State) : (settle (takePlace p s)).home.handoffs = s.home.handoffs := by
  simp only [settle_handoffs, takePlace, Home.ensure, State.setHome_home]
  split <;> rfl

/-! ### O44: answers at once -/

theorem refusedBusy_of_full {s : State} {st : Nat} (h : 32 ≤ s.home.pool.length ∨
    ((∀ e ∈ s.home.table, e.stripe ≠ st) ∧
      (16 ≤ s.home.table.length ∨ (s.sweep.auditPhase = .waiting ∧ ∀ e ∈ s.home.table, e.stripe ≠ s.sweep.auditPtr)))) :
    refusedBusy s st = true := by
  have hentry : ∀ st, (∀ e ∈ s.home.table, e.stripe ≠ st) → s.home.hasEntry st = false := fun st h => by
    simpa [Home.hasEntry] using h
  rcases h with hpool | ⟨hnone, htable | ⟨hwait, haudit⟩⟩
  · simp [refusedBusy, poolRoom, Config.poolPlaces, Nat.not_lt.2 hpool]
  · simp [refusedBusy, hentry st hnone, tableRoom, Config.tablePlaces, Nat.not_lt.2 htable]
  · simp [refusedBusy, hentry st hnone, auditWantsTable, hwait, hentry _ haudit]

/-- A peer's request refused BUSY (R87). -/
theorem refuseBusy_peer {m : Msg} {rest : List Msg} {s : State} (hin : s.link.inbound = m :: rest)
    (hv : (viewAt s m.source).state.available = true) :
    refuseBusy (.peer m.source m.tag m.seq) s = { s with
      link := { s.link with
        inbound := rest, waiters := s.link.waiters.filter (· ≠ .head)
        replies := { s.link.replies with q := s.link.replies.q ++ [replyTo s m.source m.tag m.seq { kind := .busy }] } }
      counters := { s.counters with busyRefusals := min (s.counters.busyRefusals + 1) 65535 } } := by
  have hpop : homePop (.peer m.source m.tag m.seq) (countBusy s) = _ := popInbound_cons (s := countBusy s) hin
  rw [refuseBusy, turnAway, hpop, firstAnswer_peer]
  · rfl
  · rfl
  · exact hv

/-- A peer's request answered NOT_READY and not taken (R86). -/
theorem turnAway_peer {m : Msg} {rest : List Msg} {s : State} (k : Kind) (hk : k.isFinal = false)
    (hin : s.link.inbound = m :: rest) (hv : (viewAt s m.source).state.available = true) :
    turnAway k (.peer m.source m.tag m.seq) s = s.setLink { s.link with
      inbound := rest, waiters := s.link.waiters.filter (· ≠ .head)
      replies := { s.link.replies with q := s.link.replies.q ++ [replyTo s m.source m.tag m.seq { kind := k }] } } := by
  have hpop : homePop (.peer m.source m.tag m.seq) s = _ := popInbound_cons hin
  rw [turnAway, hpop, firstAnswer_peer]
  · rfl
  · exact hk
  · exact hv

/-- A peer's request answered LOST at once, the reply cached (R86, R97). -/
theorem answerLost_peer {m : Msg} {rest : List Msg} {s : State} (rsp : Kind) (hk : rsp.isFinal = true)
    (hin : s.link.inbound = m :: rest) (hv : (viewAt s m.source).state.available = true) :
    answerLost m.kind rsp (.peer m.source m.tag m.seq) s = { s with
      link := { s.link with
        inbound := rest, waiters := s.link.waiters.filter (· ≠ .head)
        replies := { s.link.replies with
          q := s.link.replies.q ++ [replyTo s m.source m.tag m.seq { kind := rsp, status := .lost }] } }
      filter := s.filter.filter (fun e => !(e.src = m.source ∧ e.tag = m.tag)) ++
        [{ src := m.source, tag := m.tag, seq := m.seq, kind := m.kind
           state := .done (cacheOf { kind := rsp, status := .lost }) }] } := by
  have htake : takeInFilter m.kind (.peer m.source m.tag m.seq) (homePop (.peer m.source m.tag m.seq) s) =
    filterTake m (popInbound s) := rfl
  rw [answerLost, htake, popInbound_cons hin, filterTake_eq, firstAnswer_peer_final]
  · have hdone : ∀ (t : State) (c : Option Cached), doneWith (t.setFilter
        (s.filter.filter (fun e => !(e.src = m.source ∧ e.tag = m.tag)) ++
          [{ src := m.source, tag := m.tag, seq := m.seq, kind := m.kind, state := .inProgress false }]))
        m.source m.tag m.seq c = s.filter.filter (fun e => !(e.src = m.source ∧ e.tag = m.tag)) ++
          [{ src := m.source, tag := m.tag, seq := m.seq, kind := m.kind, state := .done c }] := fun t c => by
      simp only [doneWith, State.setFilter_filter, List.map_append, List.map_cons, List.map_nil]
      refine congr (congrArg (· ++ ·) ((List.map_congr_left fun e he => if_neg fun h => ?_).trans (List.map_id _))) (by simp)
      simp [h.1, h.2.1] at he
    simp only [State.setLink_filter, hdone]
    rfl
  · exact hk
  · exact hv

/-- Settles O44: without room BUSY, for a stale stripe the answer of the kind and the purpose, to an own slot BACKOFF. -/
theorem homeAnswersAtOnce : Obligations.HomeAnswersAtOnce := by
  refine ⟨fun m rest s c hserving hin hnew hplace hstale hu hr hrel hv hkind hfull => ?peer,
    fun m rest s hserving hin hnew hplace hu hr hreb hptr hv => ?stale,
    fun n tail s c hserving hhand hflight hstale hu hr hrel hbusy hkind => ?own⟩
  case peer =>
    have hreq := homeRequest_inbound hserving (admissionDue_eq_false hu hr) hin hnew
    have hbusy := refusedBusy_of_full hfull
    refine Eq.trans ?_ (congrArg Host.Outcome.next (refuseBusy_peer hin hv))
    simp only [Prod.mk.injEq] at hkind
    rcases hkind with ⟨hk, rfl⟩ | ⟨hk, rfl⟩ | ⟨hk, rfl⟩ <;> rw [hk] at hreq
    · change Host.Outcome.next (homeWrite .inbound s) = _
      simp [homeWrite, hreq, hrel, hbusy, inPlace_inbound hplace]
    · change execRecover .inbound s = _
      simp [execRecover, hreq, hstale, hbusy, inPlace_inbound hplace]
    · change execRebuild .inbound s = _
      simp [execRebuild, hreq, hstale, hbusy, inPlace_inbound hplace]
  case stale =>
    intro answer
    have hreq := homeRequest_inbound hserving (admissionDue_eq_false hu hr) hin hnew
    have hstale : stale s m.f.stripe = true := by simp [stale, hreb, hptr]
    have hreply : ∀ x : Msg, replyTo s m.source m.tag m.seq x = { msg := { x with
        source := s.own, dest := .station m.source, sState := .rebuilding, sInc := s.mem.ownInc, tag := m.tag
        seq := m.seq } } := fun x => by simp [replyTo, hreb, shownState]
    refine ⟨fun hk hp => ?_, fun hk => ?_, fun hk hp => ?_⟩ <;> rw [hk] at hreq
    · change execRecover .inbound s = _
      simp only [execRecover, hreq, hstale, hp, inPlace_inbound hplace, if_true, turnAway_peer .notReady rfl hin hv, hreply]
      rfl
    · change execRebuild .inbound s = _
      simp only [execRebuild, hreq, hstale, inPlace_inbound hplace, if_true, turnAway_peer .notReady rfl hin hv, hreply]
      rfl
    · have hlost := answerLost_peer .recoverRsp rfl hin hv
      rw [hk] at hlost
      change execRecover .inbound s = _
      simp only [execRecover, hreq, hstale, hp, inPlace_inbound hplace, if_true, hlost, hreply]
      rfl
  case own =>
    have hreq := homeRequest_own hserving (admissionDue_eq_false hu hr) hhand
    have hrefused : refuseBusy (.own n) s = _ :=
      ownReply_busy (s := (countBusy s).setHome { s.home with handoffs := s.home.handoffs.drop 1 }) hflight
    simp only [hhand, List.drop_succ_cons, List.drop_zero] at hrefused
    refine Eq.trans ?_ (congrArg Host.Outcome.next hrefused)
    simp only [Prod.mk.injEq] at hkind
    rcases hkind with ⟨hk, rfl⟩ | ⟨hk, rfl⟩ <;> rw [hk] at hreq
    · change Host.Outcome.next (homeWrite .own s) = _
      simp [homeWrite, hreq, hrel, hbusy, inPlace_own]
    · change execRecover .own s = _
      simp [execRecover, hreq, hstale, hbusy, inPlace_own]

/-! ### O45: RECOVER and REBUILD parked -/

/-- Settles O45. -/
theorem homeParksRecoversAndRebuilds : Obligations.HomeParksRecoversAndRebuilds := by
  refine ⟨fun n tail s hserving hhand hk hflight hstale hu hr hroom => ?own,
    fun m rest s c k hserving hin hnew hplace hstale hu hr hroom hv hkind => ?peer⟩
  case own =>
    intro f
    have hreq := homeRequest_own hserving (admissionDue_eq_false hu hr) hhand
    rw [hk] at hreq
    refine ⟨parkRequest .recover (waitItem .recover (.own n) f) s, ?_, ?_⟩
    · change execRecover .own s = _
      simp [execRecover, hreq, hstale, hroom, inPlace_own, f]
    · rw [parkRequest_own .recover hhand rfl hflight]
      exact ⟨settle_takePlace_pool _ _, takePlace_settled (waitItem .recover (.own n) f) _, settle_takePlace_handoffs _ _,
        rfl, rfl⟩
  case peer =>
    have hreq := homeRequest_inbound hserving (admissionDue_eq_false hu hr) hin hnew
    have hparked := parkRequest_peer (p := waitItem k (.peer m.source m.tag m.seq) m.f) hin rfl hv
    refine ⟨parkRequest m.kind (waitItem k (.peer m.source m.tag m.seq) m.f) s, ?_, ?_⟩
    · rcases hkind with ⟨hk, rfl, rfl⟩ | ⟨hk, rfl, rfl⟩ <;> rw [hk] at hreq ⊢
      · change execRecover .inbound s = _
        simp [execRecover, hreq, hstale, hroom, inPlace_inbound hplace]
      · change execRebuild .inbound s = _
        simp [execRebuild, hreq, hstale, hroom, inPlace_inbound hplace]
    · rw [hparked]
      exact ⟨settle_takePlace_pool _ _, takePlace_settled (waitItem k (.peer m.source m.tag m.seq) m.f) s, rfl, rfl, rfl, rfl,
        rfl, rfl, rfl, rfl, rfl, rfl, rfl, rfl, rfl, sameRecord_of_fixed rfl⟩

end Sys2Proof.Machine
end

section
/-! PROOFS. Slots granted and member writes issued: a WRITE with nothing before it, one parked or degraded, and the release of
a parked one (R66, R67, R75, R88, R91, R97). -/

namespace Sys2Proof.Machine

/-! ### A slot granted (R66, R67) -/

/-- The slot an ask is granted: its seq bit for the destination changed, the fields written, the counts 0. -/
def grantedSlot (a : Ask) (x : Slot) (st : SlotState) (o : Option Owner) : Slot :=
  { seqs := x.seqs.set a.dest (!x.seqs.getD a.dest false), state := st, owner := o, kind := a.kind, dest := a.dest, f := a.f,
    attempts := 0, busyCount := 0 }

/-- The request of the slot an ask is granted. -/
def grantedCopy (a : Ask) (t : Nat) (s : State) : OutMsg :=
  { msg := stamp s (slotMsg t (grantedSlot a (slotAt s t) .queued (some a.owner))) }

section
variable {a : Ask} {t : Nat} {s : State}

/-- To an available destination the request is queued. -/
theorem grantSlot_available (ht : t < s.tu.slots.length) (hd : a.dest ≠ s.own)
    (hv : (viewAt s a.dest).state.available = true) :
    grantSlot a t s = ({ s with
      tu := { s.tu with slots := s.tu.slots.set t (grantedSlot a (slotAt s t) .queued (some a.owner)) }
      link := { s.link with requests := { s.link.requests with q := s.link.requests.q ++ [grantedCopy a t s] } } }, none) := by
  have hown : (a.dest == s.own) = false := by simpa using hd
  simp only [grantSlot, hown, hv, Bool.false_eq_true, if_false, if_true]
  refine congrArg (·, none) ?_
  simp only [queueCopy]
  rw [slotAt_setSlot_same _ ht]
  simp [setSlot, setAt, State.setTu, State.setLink, grantedCopy, grantedSlot, Slot.stopped, stamp, slotMsg, Slot.seq, State.own]

/-- To the own station it is handed to the own engine. -/
theorem grantSlot_own (ht : t < s.tu.slots.length) (hd : a.dest = s.own) :
    grantSlot a t s = (let granted := s.setTu { s.tu with
        slots := s.tu.slots.set t (grantedSlot a (slotAt s t) .sent (some a.owner)) }
      if a.kind.toHome then granted.setHome { s.home with handoffs := s.home.handoffs ++ [t] }
      else granted.setHolder { s.holder with handoffs := s.holder.handoffs ++ [t] }, none) := by
  have hown : (a.dest == s.own) = true := by simpa using hd
  simp only [grantSlot, hown, if_true]
  refine congrArg (·, none) ?_
  simp only [handOff]
  rw [slotAt_setSlot_same _ ht]
  cases hk : a.kind.toHome <;>
    simp [setSlot, setAt, State.setTu, State.setHolder, State.setHome, grantedSlot, Slot.stopped]

/-- To a destination not available in the view the use ends UNAVAILABLE at once. -/
theorem grantSlot_gone (hd : a.dest ≠ s.own) (hv : (viewAt s a.dest).state.available = false) :
    grantSlot a t s = (s.setTu { s.tu with slots := s.tu.slots.set t (grantedSlot a (slotAt s t) .free none) },
      some .unavailable) := by
  have hown : (a.dest == s.own) = false := by simpa using hd
  simp only [grantSlot, hown, hv, Bool.false_eq_true, if_false]
  rfl

end

/-! ### A member write issued (R91, R97) -/

section
variable {p : Place} {t : Nat} {s : State}

theorem memberAsk_owner (s : State) (p : Place) : (memberAsk s p).owner = .member p.stripe := by
  unfold memberAsk; split <;> rfl

theorem memberAsk_kind (s : State) (p : Place) : (memberAsk s p).kind = if stale s p.stripe then .store else .update := by
  unfold memberAsk; split <;> rfl

theorem memberAsk_dest (s : State) (p : Place) : (memberAsk s p).dest = holderOf s.n p.stripe p.position := by
  unfold memberAsk; split <;> rfl

theorem memberAsk_f (s : State) (p : Place) : (memberAsk s p).f = {
    stripe := p.stripe, position := p.position, offset := p.offset, lanes := p.lanes, payload := [p.data]
    count := if stale s p.stripe then 1 else 0, voids := if stale s p.stripe then [false] else [] } := by
  unfold memberAsk; split <;> rfl

theorem issueMember_available (ht : t < s.tu.slots.length) (hd : holderOf s.n p.stripe p.position ≠ s.own)
    (hv : (viewAt s (holderOf s.n p.stripe p.position)).state.available = true) :
    issueMember t p s = { s with
      tu := { s.tu with
        slots := s.tu.slots.set t (grantedSlot (memberAsk s p) (slotAt s t) .queued (some (.member p.stripe))) }
      link := { s.link with requests := { s.link.requests with
        q := s.link.requests.q ++ [grantedCopy (memberAsk s p) t s] } } } := by
  have hgrant := grantSlot_available (a := memberAsk s p) ht (memberAsk_dest s p ▸ hd) (memberAsk_dest s p ▸ hv)
  rw [memberAsk_owner] at hgrant
  simp only [issueMember, hgrant]

end

theorem reachable_of_available {s : State} {j : Nat} (h : (viewAt s j).state.available = true) : reachable s j = true := by
  simp [reachable, h]

theorem slotAtOnce_of_free {s : State} {n : Nat} (hasks : s.tu.asks = []) (hf : freeSlot s = some n) :
    slotAtOnce s = true := by
  simp [slotAtOnce, hasks, hf]

/-- A WRITE issued as it is taken: its place a member write, its request queued, and the home settled. -/
theorem settle_issue_taken {p : Place} {t : Nat} {s u : State} (ht : t < u.tu.slots.length)
    (hhome : s.home = u.home) (hd : holderOf u.n p.stripe p.position ≠ u.own)
    (hv : (viewAt u (holderOf u.n p.stripe p.position)).state.available = true) :
    settle (issueMember t p (takePlace p u)) = { u with
      home := (settle (takePlace p s)).home
      tu := { u.tu with
        slots := u.tu.slots.set t (grantedSlot (memberAsk u p) (slotAt u t) .queued (some (.member p.stripe))) }
      link := { u.link with requests := { u.link.requests with
        q := u.link.requests.q ++ [grantedCopy (memberAsk u p) t u] } } } := by
  have htake : (takePlace p u).home = (takePlace p s).home := by simp only [takePlace, State.setHome_home, hhome]
  have hissue := issueMember_available (p := p) (t := t) (s := takePlace p u) ht hd hv
  rw [hissue, settle_eq]
  simp only [settle, State.setHome_home, htake]
  rfl

/-- The home settled with a place more. -/
theorem hasEntry_settle_takePlace (p : Place) (s : State) : (settle (takePlace p s)).home.hasEntry p.stripe = true :=
  takePlace_settled p s

theorem homeWrite_issued {via : Via} {who : Requester} {f : Fields} {n : Nat} {s : State}
    (hreq : homeRequest .write via s = some (who, f)) (hrel : releaseDue s = false) (hroom : refusedBusy s f.stripe = false)
    (hfirst : entryOccupied s f.stripe = false) (hreach : reachable s (holderOf s.n f.stripe f.position) = true)
    (hasks : s.tu.asks = []) (hfree : freeSlot s = some n) :
    homeWrite via s = settle (issueMember n { waitItem .write who f with use := .member n }
      (takePlace { waitItem .write who f with use := .member n } (takeInFilter .write who (homePop who s)))) := by
  simp [homeWrite, hreq, hrel, hroom, hfirst, hreach, slotAtOnce_of_free hasks hfree, hfree]

/-- Settles O46. -/
theorem writeIssuesMemberWrite : Obligations.WriteIssuesMemberWrite := by
  refine ⟨fun h tail n s hserving hhand hk hflight hu hr hrel => ?own,
    fun m rest n s hserving hin hk hnew hu hr hrel hroom hfirst hd hv hasks hlen hn hfree hlow => ?peer⟩
  case own =>
    intro f hroom hfirst hd hv hasks hlen hn hfree hlow sent kind
    have hreq := homeRequest_own hserving (admissionDue_eq_false hu hr) hhand
    rw [hk] at hreq
    have ht : n < s.tu.slots.length := by omega
    let p : Place := { waitItem .write (.own h) f with use := .member n }
    let u : State := s.setHome { s.home with handoffs := tail }
    have hissued := homeWrite_issued hreq hrel hroom hfirst (reachable_of_available hv) hasks (freeSlot_eq ht hfree hlow)
    have hu : takeInFilter .write (.own h) (homePop (.own h) s) = u := by
      simp only [takeInFilter, homePop, hhand, List.drop_succ_cons, List.drop_zero, u]
    rw [hu, settle_issue_taken (p := p) (s := u) (u := u) ht rfl hd hv] at hissued
    have hne : n ≠ h := fun e => by simp [Slot.inFlight, ← e, hfree] at hflight
    refine ⟨_, congrArg Host.Outcome.next hissued, settle_takePlace_pool p u, hasEntry_settle_takePlace p u,
      settle_takePlace_handoffs p u, ?_⟩
    have hslot : ∀ x : Slot, (s.tu.slots.set n x).getD n {} = x := fun x => by simp [ht]
    have hother : ∀ x : Slot, (s.tu.slots.set n x).getD h {} = slotAt s h := fun x => by simp [slotAt, hne]
    simp only [slotAt, u, State.setHome_tu, hslot, hother]
    refine ⟨trivial, rfl, rfl, memberAsk_kind s p, memberAsk_dest s p, memberAsk_f s p, ⟨_, rfl, rfl, memberAsk_kind s p, ?_,
      memberAsk_f s p⟩, rfl, rfl, rfl, rfl, rfl, rfl, rfl, rfl, rfl, sameRecord_of_fixed rfl⟩
    exact congrArg Dest.station (memberAsk_dest s p)
  case peer =>
    have hreq := homeRequest_inbound hserving (admissionDue_eq_false hu hr) hin hnew
    rw [hk] at hreq
    have ht : n < s.tu.slots.length := by omega
    let p : Place := { waitItem .write (.peer m.source m.tag m.seq) m.f with use := .member n }
    let u : State := filterTake m (popInbound s)
    have hissued := homeWrite_issued hreq hrel hroom hfirst (reachable_of_available hv) hasks (freeSlot_eq ht hfree hlow)
    have hu : takeInFilter .write (.peer m.source m.tag m.seq) (homePop (.peer m.source m.tag m.seq) s) = u := by
      rw [← hk]; rfl
    rw [hu, settle_issue_taken (p := p) (s := s) (u := u) ht rfl hd hv] at hissued
    have hslot : ∀ x : Slot, (s.tu.slots.set n x).getD n {} = x := fun x => by simp [ht]
    refine ⟨_, congrArg Host.Outcome.next hissued, settle_takePlace_pool p s, hasEntry_settle_takePlace p s, ?_⟩
    have hdrop : u.link.inbound = rest := congrArg (·.link.inbound) (popInbound_cons hin)
    have htu : u.tu = s.tu := rfl
    simp only [slotAt, htu, hslot]
    refine ⟨rfl, rfl, memberAsk_kind s p, memberAsk_dest s p, memberAsk_f s p, ⟨_, rfl, rfl, rfl, rfl, rfl⟩, hdrop, rfl, rfl,
      rfl, rfl, rfl, rfl, rfl, rfl, sameRecord_of_fixed rfl⟩

/-! ### A WRITE parked, degraded or lost (R86, R88, R97) -/

section
variable {via : Via} {who : Requester} {f : Fields} {s : State}

/-- A WRITE behind other work is parked. -/
theorem homeWrite_behind (hreq : homeRequest .write via s = some (who, f)) (hrel : releaseDue s = false)
    (hroom : refusedBusy s f.stripe = false) (hbehind : entryOccupied s f.stripe = true) :
    homeWrite via s = inPlace via (parkRequest .write (waitItem .write who f)) s := by
  simp [homeWrite, hreq, hrel, hroom, hbehind]

/-- A WRITE with nothing before it whose holder is gone is a DEGRADED_WRITE, or lost for a stripe stale here. -/
theorem homeWrite_gone (hreq : homeRequest .write via s = some (who, f)) (hrel : releaseDue s = false)
    (hroom : refusedBusy s f.stripe = false) (hfirst : entryOccupied s f.stripe = false)
    (hgone : reachable s (holderOf s.n f.stripe f.position) = false) :
    homeWrite via s = if stale s f.stripe then inPlace via (answerLost .write .writeRsp who) s
      else inPlace via (parkRequest .write (waitItem .degradedWrite who f)) s := by
  simp [homeWrite, hreq, hrel, hroom, hfirst, hgone]

/-- A WRITE with nothing before it that gets no slot at once is parked. -/
theorem homeWrite_slotless (hreq : homeRequest .write via s = some (who, f)) (hrel : releaseDue s = false)
    (hroom : refusedBusy s f.stripe = false) (hfirst : entryOccupied s f.stripe = false)
    (hreach : reachable s (holderOf s.n f.stripe f.position) = true) (hslot : slotAtOnce s = false) :
    homeWrite via s = inPlace via (parkRequest .write (waitItem .write who f)) s := by
  simp [homeWrite, hreq, hrel, hroom, hfirst, hreach, hslot]

end

/-- A slot's end changes the slots and the link alone. -/
theorem endSlot_eq (n : Nat) (s : State) : endSlot n s = (s.setTu (endSlot n s).tu).setLink (endSlot n s).link := by
  unfold endSlot withdrawCopy
  rw [withdraw_eq]
  rfl

theorem filterPark_eq (who : Requester) (b : Bool) (s : State) :
    filterPark who b s = s.setFilter (filterPark who b s).filter := by
  cases who <;> rfl

/-- A self-addressed WRITE answered LOST: its slot is freed and its entry finishes with write fault LOST. -/
theorem answerLost_own {n addr : Nat} {tail : List Nat} {e : LocalEntry} {s : State} (hhand : s.home.handoffs = n :: tail)
    (hflight : (slotAt s n).inFlight = true) (howner : (slotAt s n).owner = some (.port addr))
    (he : startedEntry s addr = some e) (hw : e.isWrite = true) :
    answerLost .write .writeRsp (.own n) s =
      finishWriteLost e (endSlot n (s.setHome { s.home with handoffs := tail })) := by
  let u : State := s.setHome { s.home with handoffs := tail }
  have hpop : answerLost .write .writeRsp (.own n) s = ownReply n { kind := .writeRsp, status := .lost } u := by
    simp only [answerLost, takeInFilter, homePop, firstAnswer, hhand, List.drop_succ_cons, List.drop_zero, u]
  have hstarted : startedEntry (endSlot n u) addr = some e := by
    rw [endSlot_eq]
    exact he
  rw [hpop, ownReply_final (s := u) hflight howner rfl, portOutcome_write hstarted hw]
  rfl

/-- Settles O47, by what stands before the WRITE, its holder, and a slot. -/
theorem writeIsParkedOrDegraded : Obligations.WriteIsParkedOrDegraded := by
  refine ⟨fun n tail s hserving hhand hk hflight hu hr hrel => ?own,
    fun m rest s hserving hin hk hnew hplace hu hr hrel hroom hv => ?peer⟩
  case own =>
    intro f hroom occupied gone parked
    have hreq := homeRequest_own hserving (admissionDue_eq_false hu hr) hhand
    rw [hk] at hreq
    have hparked : ∀ k, homeWrite .own s = inPlace .own (parkRequest .write (waitItem k (.own n) f)) s → parked k :=
      fun k hrun => by
        rw [inPlace_own, parkRequest_own .write hhand rfl hflight] at hrun
        exact ⟨_, congrArg Host.Outcome.next hrun, settle_takePlace_pool _ _, settle_takePlace_handoffs _ _, rfl, rfl⟩
    refine ⟨fun hocc => hparked _ (homeWrite_behind hreq hrel hroom hocc), fun hocc hgone hstale => hparked _ ?_,
      fun hocc hgone hslot => hparked _ ?_, fun addr e hocc hgone hstale howner he hw hn => ?_⟩
    · refine (homeWrite_gone hreq hrel hroom (Bool.eq_false_iff.2 hocc) hgone).trans (if_neg ?_)
      exact Bool.eq_false_iff.1 hstale
    · exact homeWrite_slotless hreq hrel hroom (Bool.eq_false_iff.2 hocc) (by simpa [gone] using hgone) hslot
    · have hrun := (homeWrite_gone hreq hrel hroom (Bool.eq_false_iff.2 hocc) hgone).trans (if_pos hstale)
      rw [inPlace_own, answerLost_own hhand hflight howner he hw] at hrun
      refine ⟨_, congrArg Host.Outcome.next hrun, ?_⟩
      rw [finishWriteLost_eq, endSlot_eq]
      exact ⟨rfl, (slotFreed_endSlot (s := s.setHome { s.home with handoffs := tail }) hn).of_tu rfl, rfl, rfl, rfl, rfl, rfl,
        rfl, rfl, sameRecord_of_fixed rfl⟩
  case peer =>
    intro occupied gone parked
    have hreq := homeRequest_inbound hserving (admissionDue_eq_false hu hr) hin hnew
    rw [hk] at hreq
    have hparked : ∀ k, homeWrite .inbound s =
        inPlace .inbound (parkRequest .write (waitItem k (.peer m.source m.tag m.seq) m.f)) s → parked k := fun k hrun => by
      have hpark := parkRequest_peer (p := waitItem k (.peer m.source m.tag m.seq) m.f) hin rfl hv
      rw [hk] at hpark
      rw [inPlace_inbound hplace, hpark] at hrun
      exact ⟨_, congrArg Host.Outcome.next hrun, settle_takePlace_pool _ _, rfl, rfl, ⟨_, rfl, rfl, rfl⟩, rfl, rfl, rfl, rfl, rfl,
        rfl⟩
    refine ⟨fun hocc => hparked _ (homeWrite_behind hreq hrel hroom hocc), fun hocc hgone hstale => hparked _ ?_,
      fun hocc hgone hslot => hparked _ ?_, fun hocc hgone hstale => ?_⟩
    · refine (homeWrite_gone hreq hrel hroom (Bool.eq_false_iff.2 hocc) hgone).trans (if_neg ?_)
      exact Bool.eq_false_iff.1 hstale
    · exact homeWrite_slotless hreq hrel hroom (Bool.eq_false_iff.2 hocc) (by simpa [gone] using hgone) hslot
    · have hrun := (homeWrite_gone hreq hrel hroom (Bool.eq_false_iff.2 hocc) hgone).trans (if_pos hstale)
      have hlost := answerLost_peer .writeRsp rfl hin hv
      rw [hk] at hlost
      rw [inPlace_inbound hplace, hlost] at hrun
      exact ⟨_, congrArg Host.Outcome.next hrun, rfl, rfl, ⟨_, rfl, rfl, rfl, rfl⟩, rfl, rfl, rfl, rfl, rfl, rfl⟩

/-! ### The release of a parked WRITE (R79, R91) -/

theorem movePlace_of_find {test : Place → Bool} {g : Place → Place} {p : Place} {s : State}
    (h : s.home.pool.find? test = some p) :
    movePlace test g s = s.setHome { s.home with pool := s.home.pool.eraseP test ++ [g p] } := by
  simp only [movePlace, h]

/-- Settles O48. -/
theorem oldestParkedWriteIsReleased : Obligations.OldestParkedWriteIsReleased := by
  refine ⟨fun s hdue => ?waits, fun p n s hcand hasks hlen hn hfree hlow hd hv hu hr => ?released⟩
  case waits =>
    have hadm : admissionDue s = true := by simpa [admissionDue] using hdue
    exact congrArg (fun b : Bool => if b then (Host.Outcome.next s : Host.Outcome State Fault Refusal) else _) hadm
  case released =>
    have ht : n < s.tu.slots.length := by omega
    let q : Place := { p with use := .member n }
    let v : State := s.setHome { s.home with pool := s.home.pool.eraseP s.home.releaseTest ++ [q] }
    let u : State := v.setFilter (filterPark p.who false v).filter
    have hrelease : releaseWriteOf n p s = issueMember n q u := by
      simp only [releaseWriteOf, if_pos (reachable_of_available hv)]
      rw [movePlace_of_find hcand, filterPark_eq]
    have hissued : exec .memberWriteRelease s = .next (settle (releaseWriteOf n p s)) := by
      change execMemberWriteRelease s = _
      simp only [execMemberWriteRelease, admissionDue_eq_false hu hr, Bool.false_eq_true, if_false,
        slotAtOnce_of_free hasks (freeSlot_eq ht hfree hlow), freeSlot_eq ht hfree hlow, hcand]
    rw [hrelease, issueMember_available (p := q) (s := u) ht hd hv] at hissued
    have hslot : ∀ x : Slot, (s.tu.slots.set n x).getD n {} = x := fun x => by simp [ht]
    have hf := memberAsk_f u q
    have hfilter : (filterPark p.who false v).filter = (filterPark p.who false s).filter := by cases p.who <;> rfl
    refine ⟨_, hissued, rfl, hfilter, ?_⟩
    simp only [settle, State.setHome_tu, slotAt, hslot, u, v, State.setFilter_tu]
    exact ⟨rfl, rfl, memberAsk_kind u q, memberAsk_dest u q, congrArg Fields.payload hf, congrArg Fields.lanes hf,
      congrArg Fields.offset hf, congrArg Fields.stripe hf, rfl, rfl, rfl, rfl, rfl, rfl, rfl, sameRecord_of_fixed rfl⟩

end Sys2Proof.Machine
end

section
/-! PROOFS. What is received on the bus, held replies, and the slots: grants, timers, HOLD and BUSY (R30, R35, R39, R40, R66 to
R75). -/

namespace Sys2Proof.Machine

/-! ### Slots resent and turned (R69 to R72, R75) -/

theorem queueCopy_eq (t : Nat) (s : State) :
    queueCopy t s = { s with
      tu := { s.tu with slots := s.tu.slots.set t { slotAt s t with
        state := .queued, response := none, held := none, backoff := none } }
      link := { s.link with requests := { s.link.requests with q := s.link.requests.q ++ [{ msg :=
        { kind := (slotAt s t).kind, source := s.own, dest := .station (slotAt s t).dest
          sState := shownState s.mem.ownState, sInc := s.mem.ownInc, tag := t
          seq := (slotAt s t).seqs.getD (slotAt s t).dest false, f := (slotAt s t).f } }] } } } := rfl

/-- A reply a slot takes leaves the inbox and acts on the slot (R38, R74). -/
theorem takeReply_of_takes {s : State} {m : Msg} {rest : List Msg} {o : Owner} (h : Takes s m rest o)
    (g : Nat → Msg → State → State) : takeReply m.kind g s = g m.tag m (s.setLink { s.link with inbox := rest }) := by
  have hslot : slotTakes (slotAt (s.setLink { s.link with inbox := rest }) m.tag) m = true := h.slot
  simp only [takeReply, inboxOf, h.inbox, BEq.rfl, if_true, hslot]

theorem Takes.inFlight {s : State} {m : Msg} {rest : List Msg} {o : Owner} (h : Takes s m rest o) :
    (slotAt s m.tag).inFlight = true := by
  have := h.slot
  simp only [slotTakes, Bool.and_eq_true] at this
  exact this.1.1.1

/-- Settles O32. -/
theorem slotsGoByRepliesAndTimers : Obligations.SlotsGoByRepliesAndTimers := by
  refine ⟨fun tag s => ?timers, fun m rest o s htakes => ?replies⟩
  case timers =>
    intro x resent
    have hsome : ∀ t : Option Nat, t ≠ none → t.isSome = true := fun t h => Option.isSome_iff_ne_none.2 h
    have hresent : queueCopy tag.toNat s = resent := queueCopy_eq _ _
    refine ⟨fun (hst : (slotAt s tag.toNat).state = .sent) (ht : (slotAt s tag.toNat).response ≠ none) hn => ?_,
      fun (hst : (slotAt s tag.toNat).state = .held) (ht : (slotAt s tag.toNat).held ≠ none) => ?_,
      fun (hst : (slotAt s tag.toNat).state = .backoff) (ht : (slotAt s tag.toNat).backoff ≠ none)
        (hd : (slotAt s tag.toNat).dest ≠ s.own) => ?_,
      fun (hst : (slotAt s tag.toNat).state = .backoff) (ht : (slotAt s tag.toNat).backoff ≠ none)
        (hd : (slotAt s tag.toNat).dest = s.own) (hk : (slotAt s tag.toNat).kind = .write) => ?_⟩
    · change execResponseTimerExpiry tag s = _
      have hlimit : ¬ Config.attemptLimit ≤ (slotAt s tag.toNat).attempts := Nat.not_le.2 hn
      simp only [execResponseTimerExpiry, beq_iff_eq.2 hst, hsome _ ht, Bool.and_self, if_true, if_neg hlimit, hresent]
    · change execHeldTimerExpiry tag s = _
      simp only [execHeldTimerExpiry, beq_iff_eq.2 hst, hsome _ ht, Bool.and_self, if_true, hresent]
    · change execBackoffTimerExpiry tag s = _
      simp only [execBackoffTimerExpiry, beq_iff_eq.2 hst, hsome _ ht, Bool.and_self, if_true, beq_eq_false_iff_ne.2 hd,
        Bool.false_eq_true, if_false, hresent]
    · change execBackoffTimerExpiry tag s = _
      have hhome : (slotAt s tag.toNat).kind.toHome = true := by rw [hk]; rfl
      simp only [execBackoffTimerExpiry, beq_iff_eq.2 hst, hsome _ ht, Bool.and_self, if_true, beq_iff_eq.2 hd, handOff, hhome]
      rfl
  case replies =>
    intro x n
    refine ⟨fun hk => ?_, fun hk hst => ?_, fun hk hst => ?_⟩
    · have hrun := takeReply_of_takes htakes takeHold
      rw [hk] at hrun
      refine ⟨_, congrArg Host.Outcome.next hrun, ?_, ?_, ?_, ?_⟩
      · simp [takeHold, setSlot, setAt, x, slotAt, Slot.stopped, Config.heldTime]
      · simp [takeHold, withdrawCopy_link, setSlot]
      · simp [takeHold, withdrawCopy_requests, setSlot, bne_eq_decide]
      · simp [takeHold, withdrawCopy_link, setSlot, sameRecord_of_fixed]
    · have hrun := takeReply_of_takes htakes takeBusy
      rw [hk] at hrun
      refine (congrArg Host.Outcome.next hrun).trans (congrArg Host.Outcome.next ?_)
      exact if_pos (beq_iff_eq.2 hst)
    · have hrun := takeReply_of_takes htakes takeBusy
      rw [hk] at hrun
      refine (congrArg Host.Outcome.next hrun).trans (congrArg Host.Outcome.next ?_)
      have hne : ¬ ((slotAt s m.tag).state == .queued) = true := fun h => hst (beq_iff_eq.1 h)
      refine (if_neg hne).trans ?_
      simp [setSlot, setAt, State.setTu, State.setLink, Slot.stopped, Config.busyUnit, Config.busyLimit, x, n, slotAt]

/-! ### Outcomes of local entries -/

theorem secondPhase_eq (addr : Nat) (s : State) :
    secondPhase addr s = s.setPort { s.port with entries := s.port.entries.map fun x =>
      if x.addr = addr ∧ x.started = true then { x with phase := .second } else x } := by
  simp only [secondPhase, Bool.and_eq_true, beq_iff_eq]

theorem finishReadLost_eq (e : LocalEntry) (s : State) :
    finishReadLost e s = { s with
      port := { entryLeft s e.addr with ack := true, ldo := 0, lerr := true }
      counters := { s.counters with lost := min (s.counters.lost + 1) 65535 } } := rfl

theorem secondAsk_eq (s : State) (e : LocalEntry) :
    secondAsk s e = {
      owner := .port e.addr, kind := if e.isWrite then .store else .recover
      dest := if e.isWrite then holderOf s.n e.stripe e.position else homeOf s.n e.stripe
      f := { stripe := e.stripe, position := e.position, offset := e.offset, lanes := e.lanes
             count := if e.isWrite then 1 else 0, payload := if e.isWrite then [e.data] else []
             voids := if e.isWrite then [false] else [] } } := by
  cases h : e.isWrite <;> simp [secondAsk, h]

section
variable {e : LocalEntry} {s : State}

/-- An entry whose first request found nobody goes to its second phase when that can be asked for. -/
theorem portOutcome_unavailable_second {addr : Nat} (he : startedEntry s addr = some e) (hfirst : e.phase = .first)
    (hreach : reachable s (if e.isWrite then holderOf s.n e.stripe e.position else homeOf s.n e.stripe) = true) :
    portOutcome addr .unavailable s = addAsk (secondAsk s e) (secondPhase e.addr s) := by
  cases hw : e.isWrite with
  | true =>
    simp only [hw, if_true] at hreach
    simp [portOutcome_write he hw, writeOutcome, hfirst, hreach]
  | false =>
    simp only [hw, Bool.false_eq_true, if_false] at hreach
    simp [portOutcome_read he hw, readOutcome, okWord, hfirst, hreach]

/-- Otherwise it finishes with fault LOST. -/
theorem portOutcome_unavailable_lost {addr : Nat} (he : startedEntry s addr = some e) (hlost : e.phase = .second ∨
    reachable s (if e.isWrite then holderOf s.n e.stripe e.position else homeOf s.n e.stripe) = false) :
    portOutcome addr .unavailable s = if e.isWrite then finishWriteLost e s else finishReadLost e s := by
  cases hw : e.isWrite with
  | true =>
    simp only [hw, if_true] at hlost
    rcases hlost with h | h <;> simp [portOutcome_write he hw, writeOutcome, h]
  | false =>
    simp only [hw, Bool.false_eq_true, if_false] at hlost
    rcases hlost with h | h <;> simp [portOutcome_read he hw, readOutcome, okWord, h]

end

/-! ### SLOT_GRANT (R66, R67, R73, R75) -/

/-- An operation's next ask joins the slot-request list, when it has none there (R66, R95). -/
theorem askNext_spec {st : Nat} {op : Op} {s : State} (hop : opAt s st = some op) (hnone : ∀ x ∈ s.tu.asks, x.owner ≠ .op st) :
    opAt (askNext st s) st = some { op with
      toAsk := op.toAsk.drop 1, outstanding := op.outstanding + min op.toAsk.length 1 } ∧
    (askNext st s).tu = { s.tu with asks := s.tu.asks ++ op.toAsk.take 1 } ∧
    (askNext st s).home.pool = s.home.pool := by
  have hany : s.tu.asks.any (fun x => x.owner == .op st) = false := by simpa using hnone
  simp only [askNext, hany, Bool.false_eq_true, if_false, hop]
  cases hto : op.toAsk with
  | nil =>
    refine ⟨hop.trans (congrArg some ?_), by simp, rfl⟩
    cases op
    simp only at hto
    subst hto
    rfl
  | cons a l =>
    refine ⟨?_, by simp [addAsk, mapOp], rfl⟩
    rw [opAt_addAsk, opAt_mapOp, hop]
    simp

theorem afterGrant_of_ne {o : Owner} (h : ∀ st, o ≠ .op st) (s : State) : afterGrant o s = s := by
  cases o with
  | op st => exact absurd rfl (h st)
  | port | member | sweep | repair => rfl

theorem execSlotGrant_cons {a : Ask} {rest : List Ask} {n : Nat} {s : State} (hasks : s.tu.asks = a :: rest)
    (hfree : freeSlot s = some n) :
    execSlotGrant s = .next (settle (afterGrant a.owner
      (match (grantSlot a n (s.setTu { s.tu with asks := rest })).2 with
       | none => (grantSlot a n (s.setTu { s.tu with asks := rest })).1
       | some o => handOutcome n { owner := some a.owner, kind := a.kind, dest := a.dest, f := a.f } o
           (grantSlot a n (s.setTu { s.tu with asks := rest })).1))) := by
  simp only [execSlotGrant, hasks, hfree] <;> rfl

theorem grantedSlot_seq {a : Ask} {x : Slot} (h : a.dest < x.seqs.length) (st : SlotState) (o : Option Owner) :
    (grantedSlot a x st o).seq = !x.seqs.getD a.dest false := by
  simp [grantedSlot, Slot.seq, h]

/-- Settles O31. -/
theorem oldestAskGetsLowestSlot : Obligations.OldestAskGetsLowestSlot := by
  intro a rest n s hasks hlen hn hfree hlow bit slot copy queued ended gone
  have ht : n < s.tu.slots.length := by omega
  have hexec := execSlotGrant_cons hasks (freeSlot_eq ht hfree hlow)
  let u : State := s.setTu { s.tu with asks := rest }
  have hqueued : queued → execSlotGrant s = .next (settle (afterGrant a.owner { s with
      tu := { slots := s.tu.slots.set n (slot .queued (some a.owner)), asks := rest }
      link := { s.link with requests := { s.link.requests with q := s.link.requests.q ++ [copy] } } })) := by
    rintro ⟨hd, hv, hseq⟩
    rw [hexec, grantSlot_available (s := u) ht hd hv]
    have hcopy : grantedCopy a n u = copy := by
      have := grantedSlot_seq (x := slotAt s n) hseq .queued (some a.owner)
      simp only [grantedCopy, stamp, slotMsg, copy, bit]
      rw [show slotAt u n = slotAt s n from rfl, this]
      rfl
    rw [hcopy]
    rfl
  have hgone : gone → execSlotGrant s = .next (settle (afterGrant a.owner
      (handOutcome n { owner := some a.owner, kind := a.kind, dest := a.dest, f := a.f } .unavailable ended))) := by
    rintro ⟨hd, hv⟩
    rw [hexec, grantSlot_gone (s := u) hd hv]
    rfl
  refine ⟨fun hother => ⟨fun hq => ?queued, fun hd hk => ?home, fun hd hk => ?holder⟩,
    fun st op ho hop hnone hq => ?op, hgone, fun addr e ho he hg => ?entry⟩
  case queued =>
    refine (hqueued hq).trans ?_
    rw [afterGrant_of_ne hother]
    rfl
  case home | holder =>
    have hkind : a.kind.toHome = decide (a.kind = .write ∨ a.kind = .recover ∨ a.kind = .rebuild) := by
      cases a.kind <;> rfl
    refine hexec.trans ?_
    rw [grantSlot_own (s := u) ht hd, hkind, afterGrant_of_ne hother]
    simp only [hk, decide_true, if_true]
    rfl
  case op =>
    let g : State := { s with
      tu := { slots := s.tu.slots.set n (slot .queued (some a.owner)), asks := rest }
      link := { s.link with requests := { s.link.requests with q := s.link.requests.q ++ [copy] } } }
    obtain ⟨hopAt, htu, hpool⟩ := askNext_spec (s := g) (op := op) hop hnone
    have hafter : afterGrant a.owner g = askNext st g := by rw [ho]; rfl
    refine ⟨_, (hqueued hq).trans (congrArg (fun t => Host.Outcome.next (settle t)) hafter), ?_⟩
    obtain ⟨hmem, hlink, -, hholder, -, hport, hcounters, -, hbank⟩ := askNext_keeps st g
    exact ⟨htu, opAt_settle hopAt, hlink, hpool, hmem, hholder, hport, hcounters, hbank,
      sameRecord_of_fixed ((settle_fixed _).trans (askNext_fixed st g))⟩
  case entry =>
    intro next
    have hrun := hgone hg
    rw [ho] at hrun
    have hout : handOutcome n { owner := some (.port addr), kind := a.kind, dest := a.dest, f := a.f } .unavailable ended =
        portOutcome addr .unavailable ended := rfl
    have hnext : next = if e.isWrite then holderOf ended.n e.stripe e.position else homeOf ended.n e.stripe := rfl
    have hstarted : startedEntry ended addr = some e := he
    refine ⟨fun hfirst hreach => ?_, fun hlost => ?_⟩
    · rw [hout, portOutcome_unavailable_second hstarted hfirst (hnext ▸ hreach), secondPhase_eq, secondAsk_eq] at hrun
      refine ⟨_, hrun, ?_, rfl, rfl, rfl, rfl, rfl, sameRecord_of_fixed rfl⟩
      cases hw : e.isWrite <;> simp [settle, afterGrant, addAsk, ended, next, hw, State.n]
    · rw [hout, portOutcome_unavailable_lost hstarted (hnext ▸ hlost)] at hrun
      cases hw : e.isWrite <;> simp only [hw, Bool.false_eq_true, if_false, if_true] at hrun
      · exact ⟨_, hrun, rfl, fun h => absurd h (by simp), fun _ => ⟨rfl, rfl, rfl⟩, rfl, rfl, sameRecord_of_fixed rfl⟩
      · exact ⟨_, hrun, rfl, fun _ => ⟨rfl, rfl, rfl⟩, fun h => absurd h (by simp), rfl, rfl, sameRecord_of_fixed rfl⟩

/-! ### Held replies (R35) -/

theorem filterDone_eq (m : Msg) (s : State) : filterDone m s = s.setFilter (filterDone m s).filter := by
  unfold filterDone
  (repeat' split) <;> rfl

theorem filterDone_filter_of_eq {s t : State} (m : Msg) (h : t.filter = s.filter) :
    (filterDone m t).filter = (filterDone m s).filter := by
  unfold filterDone
  (repeat' split) <;> simp [filterStep, h]

/-- Settles O29: whether or not the reply is a REBUILD's, it is queued and no operation waits for it. -/
theorem heldReplyTakesFreedPlace : Obligations.HeldReplyTakesFreedPlace := by
  intro m rest s hwait hroom hop hnot
  let u : State := s.setLink { s.link with waiters := rest }
  have hdropped : replyDropped (u.setFilter (filterDone m.msg u).filter) m.msg = false := hnot
  have hplain : ({ msg := m.msg } : OutMsg) = m := by rw [← hop]
  have hrun : execHeldReplyQueued s = .next (if m.msg.kind = .rebuildRsp
      then pushReply m (u.setFilter (filterDone m.msg u).filter)
      else settle (pushReply m (u.setFilter (filterDone m.msg u).filter))) := by
    have hrank : s.link.waiters.findIdx (· != .head) = 0 := by
      rw [hwait, List.findIdx_cons]; rfl
    have hhead : s.link.waiters[0]? = some (.reply m) := by rw [hwait]; rfl
    have hrest : s.link.waiters.eraseIdx 0 = rest := by rw [hwait]; rfl
    have hdone : filterDone m.msg u = u.setFilter (filterDone m.msg u).filter := filterDone_eq _ _
    simp only [execHeldReplyQueued, hrank, hhead, hroom, if_true, hrest]
    change (if replyDropped (filterDone m.msg u) m.msg then _ else _) = _
    rw [hdone, hdropped, hplain]
    simp only [Bool.false_eq_true, if_false, beq_iff_eq, opDisposed, hop]
    split <;> rfl
  have hfilter := filterDone_filter_of_eq (s := s) (t := u) m.msg rfl
  refine ⟨_, hrun, ?_⟩
  split
  all_goals exact ⟨rfl, rfl, rfl, rfl, rfl, hfilter, rfl, rfl, rfl, rfl, rfl, rfl, rfl, rfl, sameRecord_of_fixed rfl⟩

/-! ### Another station's message (R30, R39, R40) -/

theorem headerState_eq (old : ViewState) (x : PeerState) :
    headerState old x =
      if old = .absent ∨ old = .joining ∨ (old = .rebuilding ∧ x.toView = .active) then x.toView else old := by
  cases old <;> cases x <;> rfl

theorem placeMsg_eq (m : Msg) (s : State) :
    placeMsg m s = s.setLink (if m.kind.isReply then { s.link with inbox := s.link.inbox ++ [m] }
      else { s.link with inbound := s.link.inbound ++ [m] }) := by
  unfold placeMsg
  split <;> rfl

section
variable {bs : List Byte} {m : Msg} {s : State}

theorem receive_unaddressed (h : live s = false ∨ addressedTo s.own bs = false) : receive bs s = setAnswer .none s := by
  rcases h with h | h <;> simp [receive, h]

theorem receive_bad (hlive : live s = true) (haddr : addressedTo s.own bs = true)
    (hbad : ∀ m, decodeFrame s.straps bs ≠ .ok m) : receive bs s = setAnswer .refuse s := by
  simp only [receive, hlive, haddr, Bool.not_true, Bool.or_self, Bool.false_eq_true, if_false]
  cases h : decodeFrame s.straps bs with
  | ok m => exact absurd h (hbad m)
  | badCheck | undefinedKind | malformed => rfl

theorem receive_ok (hlive : live s = true) (haddr : addressedTo s.own bs = true) (hok : decodeFrame s.straps bs = .ok m) :
    receive bs s = if inboundFull m.kind s then setAnswer .refuse s else headerStep m (setAnswer .accept s) := by
  simp only [receive, hlive, haddr, hok, Bool.not_true, Bool.or_self, Bool.false_eq_true, if_false]

theorem receive_full (hlive : live s = true) (haddr : addressedTo s.own bs = true) (hok : decodeFrame s.straps bs = .ok m)
    (hfull : inboundFull m.kind s = true) : receive bs s = setAnswer .refuse s := by
  rw [receive_ok hlive haddr hok, if_pos hfull]

theorem receive_roomy (hlive : live s = true) (haddr : addressedTo s.own bs = true) (hok : decodeFrame s.straps bs = .ok m)
    (hroom : inboundFull m.kind s = false) : receive bs s = headerStep m (setAnswer .accept s) := by
  rw [receive_ok hlive haddr hok, if_neg (Bool.eq_false_iff.1 hroom)]

/-- A message of a failed incarnation is discarded with a FAIL to its sender. -/
theorem headerStep_failed (hk : m.kind ≠ .hello) (hst : (viewAt s m.source).state = .failed)
    (hinc : (viewAt s m.source).inc = m.sInc) :
    headerStep m s = queueNotice (failNotice (.station m.source) m.source m.sInc) s := by
  simp [headerStep, hk, hst, hinc]

/-- A message of another incarnation is discarded. -/
theorem headerStep_other (hk : m.kind ≠ .hello) (hst : (viewAt s m.source).state ≠ .absent)
    (hinc : (viewAt s m.source).inc ≠ m.sInc) : headerStep m s = s := by
  simp [headerStep, hk, hst, hinc]

/-- Any other updates the view and is placed. -/
theorem headerStep_taken (hk : m.kind ≠ .hello) (hst : (viewAt s m.source).state ≠ .failed)
    (hinc : (viewAt s m.source).state = .absent ∨ (viewAt s m.source).inc = m.sInc) :
    headerStep m s = placeMsg m (headerView m s) := by
  have hother : ((viewAt s m.source).state != .absent && (viewAt s m.source).inc != m.sInc) = false := by
    rcases hinc with h | h <;> simp [h]
  simp [headerStep, hk, hst, hother]

end

theorem exec_received {bs : List Byte} {s : State} (hbus : s.link.bus = .other) :
    exec (.acceptancePhase (.received bs)) s = .next (receive bs (s.setLink { s.link with bus := .free })) := by
  change execAcceptancePhase (.received bs) s = _
  simp only [execAcceptancePhase, hbus]

/-- Settles O28, by what the frame is and what the view holds of its sender. -/
theorem receivedMessagesAreAnswered : Obligations.ReceivedMessagesAreAnswered := by
  refine ⟨fun bs m s hbus hlive haddr hok hroom => ?taken, fun bs s hbus => ?turned⟩
  case taken =>
    intro v link placed
    let free : State := s.setLink { s.link with bus := .free }
    have hrun : exec (.acceptancePhase (.received bs)) s = .next (headerStep m (free.setLink link)) :=
      (exec_received hbus).trans (congrArg _ (receive_roomy (s := free) hlive haddr hok hroom))
    rw [hrun]
    refine ⟨fun hk => ?_, fun hk hst hinc => ?_⟩
    · have hstep : headerStep m (free.setLink link) = placeMsg m (free.setLink link) := if_pos (beq_iff_eq.2 hk)
      rw [hstep, placeMsg_eq]
      rfl
    · intro x st
      rw [headerStep_taken (s := free.setLink link) hk hst hinc, placeMsg_eq]
      have hstate : headerState v.state m.sState = st := headerState_eq _ _
      have hview : headerView m (free.setLink link) = (causeView (st != v.state)
          (setView m.source { v with state := st, inc := m.sInc } (free.setLink link))) := by
        rw [← hstate]; rfl
      rw [hview]
      simp only [causeView, setView, bne_eq_decide]
      rfl
  case turned =>
    intro answered
    refine ⟨fun h => ?_, fun hlive haddr hbad => ?_, fun m hlive haddr hok => ⟨fun hfull => ?_, fun hroom hk => ?_⟩, ?_⟩
    · exact (exec_received hbus).trans (congrArg _ (receive_unaddressed (s := s.setLink { s.link with bus := .free }) h))
    · exact (exec_received hbus).trans (congrArg _ (receive_bad (s := s.setLink { s.link with bus := .free }) hlive haddr hbad))
    · exact (exec_received hbus).trans (congrArg _
        (receive_full (s := s.setLink { s.link with bus := .free }) hlive haddr hok hfull))
    · have hreceive := receive_roomy (s := s.setLink { s.link with bus := .free }) hlive haddr hok hroom
      have hrun : exec (.acceptancePhase (.received bs)) s = .next (headerStep m (answered .accept)) :=
        (exec_received hbus).trans (congrArg _ hreceive)
      exact ⟨fun hst hinc => hrun.trans (congrArg _ (headerStep_failed (s := answered .accept) hk hst hinc)),
        fun hst hinc => hrun.trans (congrArg _ (headerStep_other (s := answered .accept) hk hst hinc))⟩
    · change execAcceptancePhase .cut s = _
      simp only [execAcceptancePhase, hbus]

end Sys2Proof.Machine
end

section
/-! PROOFS. Joins: the expulsion by an own FAIL, the join decision; and the admissions of the sweep unit (R52 to R63, R143 to
R147, R158, R161 to R165, R193). -/

namespace Sys2Proof.Machine

/-! ### Expulsion (R61 to R63, R193) -/

/-- The started entries ended one after another: their write faults counted, the queue still as it was. -/
theorem foldl_expelEntry (l : List LocalEntry) (s : State) :
    (l.foldl expelEntry s).port.entries = s.port.entries ∧
    (l.foldl expelEntry s).counters = { s.counters with
      writeFaults := (l.filter (·.isWrite)).foldl (fun n _ => min (n + 1) 65535) s.counters.writeFaults } := by
  induction l generalizing s with
  | nil => exact ⟨rfl, rfl⟩
  | cons e l ih =>
    obtain ⟨hentries, hcounters⟩ := ih (expelEntry s e)
    rw [List.foldl_cons, hentries, hcounters]
    cases hw : e.isWrite <;> simp [expelEntry, hw, completeRead, writeFault, satAdd, Config.counterMax]

theorem expelEntries_spec (s : State) :
    (expelEntries s).port.entries = s.port.entries.filter (fun e => !e.started) ∧
    (expelEntries s).counters = { s.counters with
      writeFaults := (s.port.entries.filter (fun e => e.started && e.isWrite)).foldl (fun n _ => min (n + 1) 65535)
        s.counters.writeFaults } := by
  obtain ⟨hentries, hcounters⟩ := foldl_expelEntry (s.port.entries.filter (·.started)) s
  refine ⟨?_, hcounters.trans ?_⟩
  · simp only [expelEntries, State.setPort_port, hentries]
  · rw [List.filter_filter]
    simp only [Bool.and_comm]

theorem expelMode_eq (s : State) :
    expelMode s = if s.mem.ownState = .rebuilding ∨ s.mem.ownState = .active then .warm else s.mem.joinMode := by
  unfold expelMode
  cases s.mem.ownState <;> rfl

/-- The blocks that expulsion clears. -/
def cleared (s : State) : State :=
  let s := s.setMem { s.mem with fillProgress := 0 }
  let s := s.setTu { slots := s.tu.slots.map fun x => { x.stopped with state := .free, owner := none }, asks := [] }
  let s := (((s.setFilter []).setHome {}).setHolder {}).setSweep { auditPtr := s.own }
  let s := s.setLink (expelLink s.link)
  s.setBank (expelBank s.bank)

theorem expelled_eq (s : State) :
    expelled s = cleared (expelEntries (causeView (viewHeld (finishClaim s)) (finishClaim s))) := rfl

theorem cleared_spec (s : State) :
    (cleared s).mem = { s.mem with fillProgress := 0 } ∧ (cleared s).link = expelLink s.link ∧
    (cleared s).bank = { words := s.bank.words } ∧ (cleared s).port = s.port ∧ (cleared s).counters = s.counters ∧
    (cleared s).sweep = { auditPtr := s.own } := ⟨rfl, rfl, rfl, rfl, rfl, rfl⟩

/-- What expulsion leaves, before the start of joining. -/
theorem expelled_spec (s : State) :
    (expelled s).mem = { s.mem with fillProgress := 0 } ∧ (expelled s).link = expelLink s.link ∧
    (expelled s).bank = { words := (finishClaim s).bank.words } ∧
    (expelled s).port.entries = s.port.entries.filter (fun e => !e.started) ∧
    (expelled s).counters = { (finishClaim s).counters with
      writeFaults := (s.port.entries.filter (fun e => e.started && e.isWrite)).foldl (fun n _ => min (n + 1) 65535)
        (finishClaim s).counters.writeFaults } ∧
    (expelled s).sweep = { auditPtr := s.own } := by
  have hfinish := finishClaim_keeps s
  obtain ⟨hmem, hlink, -, -, -, -, -, hport, -⟩ := hfinish
  rw [expelled_eq]
  generalize hu : causeView (viewHeld (finishClaim s)) (finishClaim s) = u
  have humem : u.mem = s.mem := by rw [← hu]; exact hmem
  have hulink : u.link = s.link := by rw [← hu]; exact hlink
  have huport : u.port = s.port := by rw [← hu]; exact hport
  have hucounters : u.counters = (finishClaim s).counters := by rw [← hu]; rfl
  have hubank : u.bank = (finishClaim s).bank := by rw [← hu]; rfl
  have hustraps : u.straps = s.straps := by rw [← hu]; exact (finishClaim_fixed s).1
  obtain ⟨hentries, hcounters⟩ := expelEntries_spec u
  obtain ⟨kmem, klink, -, -, -, -, -, kbank⟩ := expelEntries_keeps u
  obtain ⟨cmem, clink, cbank, cport, ccounters, csweep⟩ := cleared_spec (expelEntries u)
  rw [huport] at hentries hcounters
  rw [hucounters] at hcounters
  refine ⟨?_, ?_, ?_, ?_, ?_, ?_⟩
  · rw [cmem, kmem, humem]
  · rw [clink, klink, hulink]
  · rw [cbank, kbank, hubank]
  · rw [cport, hentries]
  · rw [ccounters, hcounters]
  · rw [csweep, own_of_straps ((straps_of_fixed (expelEntries_fixed u)).trans hustraps)]

theorem expelled_cleared (s : State) :
    (∀ x ∈ (expelled s).tu.slots, x.state = .free ∧ x.owner = none) ∧ (expelled s).tu.asks = [] ∧
    (expelled s).filter = [] ∧ (expelled s).home = {} ∧ (expelled s).holder = {} := by
  rw [expelled_eq]
  generalize expelEntries _ = u
  refine ⟨fun x hx => ?_, rfl, rfl, rfl, rfl⟩
  obtain ⟨y, -, rfl⟩ := List.mem_map.1 hx
  exact ⟨rfl, rfl⟩

theorem queueNotice_empty {s : State} (h : s.link.notices.q = []) (n : Msg) :
    queueNotice n s = s.setLink { s.link with notices := { s.link.notices with q := [{ msg := stamp s n }] } } := by
  simp [queueNotice, h]

/-- The start of joining that follows an expulsion: the HELLO alone is queued. -/
theorem expel_link (s : State) : (expel s).link = { expelLink s.link with notices := { q := [
    { msg := stamp ((expelled s).setMem (joiner (expelMode s) (expelled s))) (helloNotice (expelMode s)) }] } } := by
  have hlink := (expelled_spec s).2.1
  have hempty : ((expelled s).setMem (joiner (expelMode s) (expelled s))).link.notices.q = [] := by
    rw [State.setMem_link, hlink]; rfl
  rw [expel_eq, startJoining_eq, queueNotice_empty hempty, State.setLink_link, State.setMem_link, hlink]
  rfl

theorem expel_keeps (s : State) :
    (expel s).tu = (expelled s).tu ∧ (expel s).filter = (expelled s).filter ∧ (expel s).home = (expelled s).home ∧
    (expel s).holder = (expelled s).holder ∧ (expel s).sweep = (expelled s).sweep ∧ (expel s).bank = (expelled s).bank ∧
    (expel s).port = (expelled s).port ∧ (expel s).counters = (expelled s).counters := by
  rw [expel_eq]
  simp

theorem finishClaim_free {s : State} (h : s.bank.busy = none) : finishClaim s = s := by simp [finishClaim, h]

theorem finishClaim_busy {s : State} {b : BusyClaim} (h : s.bank.busy = some b) : finishClaim s = runClaim b.claim s := by
  simp [finishClaim, h]

theorem finishClaim_counters (s : State) :
    (finishClaim s).counters = { s.counters with lost := (finishClaim s).counters.lost } := by
  unfold finishClaim
  split <;> rfl

/-- Settles O37, block by block of the station expelled. -/
theorem ownFailExpels : Obligations.OwnFailExpels := by
  intro m rest s hlive hin hk htarget
  have hfail : inboundOf .fail s = some m := hk ▸ inboundOf_cons hlive hin
  let u : State := popInbound s
  have hpop : u = _ := popInbound_cons hin
  have hto : (m.target == u.own) = true := beq_iff_eq.2 htarget
  refine ⟨fun hinc => ⟨expel u, ?_, ?_⟩, fun hinc => ⟨u, ?_, ?_⟩⟩
  · have hcurrent : (m.targetInc == u.mem.ownInc) = true := beq_iff_eq.2 hinc
    change execFail s = _
    simp only [execFail, hfail]
    rw [if_pos hto, if_pos hcurrent]
  · obtain ⟨hmem, -, hbank, hentries, hcounters, hsweep⟩ := expelled_spec u
    obtain ⟨hslots, hasks, hfilter, hhome, hholder⟩ := expelled_cleared u
    obtain ⟨ktu, kfilter, khome, kholder, ksweep, kbank, kport, kcounters⟩ := expel_keeps u
    obtain ⟨hstraps, henables, hpending, -⟩ := expel_records u
    have hjoin : (expel u).mem = joiner (expelMode u) (expelled u) := by rw [expel_eq, startJoining_mem]
    have hown : (expelled u).own = s.own := own_of_straps (expelled_carried u).straps
    have hlink := expel_link u
    have hlost : (expel u).counters.lost = (finishClaim u).counters.lost := by rw [kcounters, hcounters]
    refine ⟨expel_ownState u, expel_inc u, ?_, ?_, ?_, ?_, fun j hj hne => ?_, ktu ▸ hslots, ktu ▸ hasks, kfilter ▸ hfilter,
      khome ▸ hhome, kholder ▸ hholder, ksweep ▸ hsweep, fun hfree => ?_, fun b hbusy => ?_, ?_, ?_, ?_, ?_, ?_,
      kport ▸ hentries, ?_, henables, hstraps, hpending⟩
    · rw [hjoin]; rfl
    · rw [hjoin]; rfl
    · rw [hjoin]; exact congrArg (·.fillProgress) hmem
    · rw [hjoin]; exact expelMode_eq u
    · simp only [viewAt, hjoin, joiner, setAt, hown]
      rw [List.getD_eq_getElem?_getD, List.getElem?_set_ne hne.symm, List.getElem?_replicate, if_pos hj]
      rfl
    · have hf := finishClaim_free (s := u) hfree
      rw [kbank, hbank, hlost, hf]
      exact ⟨rfl, rfl⟩
    · have hf := finishClaim_busy (s := u) hbusy
      rw [kbank, hbank, hlost, hf]
      exact ⟨rfl, rfl⟩
    · rw [hlink]; rfl
    · rw [hlink, hpop]; rfl
    · rw [hlink]; rfl
    · rw [hlink]
      change (s.link.replies.q.map fun m => { m with op := none }).map (·.msg) = _
      rw [List.map_map]
      rfl
    · rw [hlink]
      change [(Kind.hello, Dest.all, (expelled u).mem.ownInc + 1)] = _
      rw [hmem]
      rfl
    · rw [hlost, kcounters, hcounters]
      have hkept := finishClaim_counters u
      rw [hkept]
      rfl
  · have hold : ¬ (m.targetInc == u.mem.ownInc) = true := fun h => hinc (beq_iff_eq.1 h)
    change execFail s = _
    simp only [execFail, hfail]
    rw [if_pos hto, if_neg hold]
  · rw [hpop]
    exact ⟨rfl, rfl, rfl, rfl, rfl⟩

/-! ### The join decision (R54, R55) -/

theorem helloPending_iff (s : State) : helloPending s = true ↔ ¬ ∀ q ∈ s.link.notices.q, q.msg.kind ≠ .hello := by
  simp [helloPending]

theorem workingPeer_iff (s : State) :
    workingPeer s = true ↔ ∃ e ∈ s.mem.working, e.2 ≠ .joining ∧ (viewAt s e.1).state.available = true := by
  simp [workingPeer]

/-- The station as the join decision finds it: the window closed, the working set empty. -/
def decided (s : State) : State := s.setMem { s.mem with working := [], window := .closed }

theorem setOwnState_mem (x : OwnState) (s : State) : (setOwnState x s).mem = { s.mem with
    ownState := x
    views := s.mem.views.set s.own
      { state := (shownState x).toView, inc := s.mem.ownInc, mode := s.mem.joinMode } } := rfl

/-- A stripe begun leaves the pointer, and a step other than IDLE. -/
theorem beginStripe_sweep (st : Nat) (s : State) :
    (beginStripe st s).sweep.rebuildPtr = s.sweep.rebuildPtr ∧ (beginStripe st s).sweep.rebuildStep ≠ .idle := by
  unfold beginStripe offerRecompute
  (repeat' split) <;> simp [askRebuild]

theorem mem_stateNotice (x : PeerState) (s : State) :
    ∃ q ∈ (queueNotice (stateNotice x) s).link.notices.q, q.msg.kind = .state ∧ q.msg.nState = x := by
  obtain ⟨q, hq, hmsg⟩ := mem_queueNotice (stateNotice x) s
  exact ⟨q, hq, by rw [hmsg]; rfl, by rw [hmsg]; rfl⟩

theorem joinDecision_peer {s : State} (h : workingPeer s = true) :
    joinDecision s = beginStripe 0 ((queueNotice (stateNotice .rebuilding) (setOwnState .rebuilding (decided s))).setSweep
      { s.sweep with rebuildPtr := 0 }) := by
  unfold joinDecision
  dsimp only
  rw [if_pos h]
  have hsweep : (queueNotice (stateNotice .rebuilding) (setOwnState .rebuilding (decided s))).sweep = s.sweep := by
    simp [decided]
  rw [← hsweep]
  rfl

theorem joinDecision_alone {s : State} (h : ¬ workingPeer s = true) :
    joinDecision s = if s.mem.joinMode = .cold then
        fillClaim 0 ((setOwnState .filling (decided s)).setMem
          { (setOwnState .filling (decided s)).mem with fillProgress := 0 })
      else goActive (decided s) := by
  unfold joinDecision
  dsimp only
  rw [if_neg h]
  split
  next hmode => exact (if_pos hmode).symm
  next hmode => exact (if_neg fun h => by cases hmode.symm.trans h).symm

/-- Settles O38, by the HELLO, the working peers and the join mode. -/
theorem joinDecisionByWorkingPeers : Obligations.JoinDecisionByWorkingPeers := by
  intro n s hwindow peer noHello
  have hrun : exec .joinWindowExpiry s =
      if helloPending s then .next (s.setMem { s.mem with window := .expired }) else .next (settle (joinDecision s)) := by
    change execJoinWindowExpiry s = _
    simp only [execJoinWindowExpiry, hwindow]
  have hgo : noHello → exec .joinWindowExpiry s = .next (settle (joinDecision s)) := fun h => by
    rw [hrun, if_neg fun hp => (helloPending_iff s).1 hp h]
  have halone : ¬ peer → joinDecision s = _ := fun h => joinDecision_alone fun hp => h ((workingPeer_iff s).1 hp)
  have hrecord : ∀ t : State, t = settle (joinDecision s) → sameRecord s t := fun t ht => sameRecord_of_fixed (by simp [ht])
  refine ⟨fun h => ?waits, fun h hpeer => ?rebuilding, fun h hpeer hmode => ?filling, fun h hpeer hmode => ?active⟩
  case waits => rw [hrun, if_pos ((helloPending_iff s).2 h)]
  case rebuilding =>
    let v : State := queueNotice (stateNotice .rebuilding) (setOwnState .rebuilding (decided s))
    refine ⟨_, hgo h, ?_⟩
    have hsame := hrecord _ rfl
    rw [joinDecision_peer ((workingPeer_iff s).2 hpeer)] at hsame ⊢
    obtain ⟨hptr, hstep⟩ := beginStripe_sweep 0 (v.setSweep { s.sweep with rebuildPtr := 0 })
    obtain ⟨hmem, hlink, -, -, hport, -, -, hbank⟩ := beginStripe_keeps 0 (v.setSweep { s.sweep with rebuildPtr := 0 })
    have hv : v.mem = (setOwnState .rebuilding (decided s)).mem := by simp [v]
    obtain ⟨q, hq, hkind, hstate⟩ := mem_stateNotice .rebuilding (setOwnState .rebuilding (decided s))
    refine ⟨?_, hptr, hstep, ?_, ?_, ⟨q, ?_, hkind, hstate⟩, ?_, ?_, hsame⟩
    · exact (congrArg (·.ownState) hmem).trans (congrArg (·.ownState) hv)
    · exact (congrArg (·.window) hmem).trans (congrArg (·.window) hv)
    · exact (congrArg (·.working) hmem).trans (congrArg (·.working) hv)
    · exact (congrArg (·.notices.q) hlink) ▸ hq
    · exact hbank.trans (by simp [v, decided])
    · exact hport.trans (by simp [v, decided])
  case filling =>
    refine ⟨_, hgo h, ?_⟩
    have hsame := hrecord _ rfl
    rw [halone hpeer, if_pos hmode] at hsame ⊢
    exact ⟨rfl, rfl, rfl, rfl, rfl, rfl, rfl, rfl, hsame⟩
  case active =>
    refine ⟨_, hgo h, ?_⟩
    have hsame := hrecord _ rfl
    rw [halone hpeer, if_neg (by rw [hmode]; decide)] at hsame ⊢
    let v : State := queueNotice (stateNotice .active) (setOwnState .active (decided s))
    obtain ⟨q, hq, hkind, hstate⟩ := mem_stateNotice .active (setOwnState .active (decided s))
    have hv : v.mem = (setOwnState .active (decided s)).mem := by simp [v]
    have hsweep : v.sweep = s.sweep := by simp [v, decided]
    have hstraps : v.straps = s.straps := straps_of_fixed (by simp [v, decided])
    obtain ⟨-, -, -, -, hport, -, -, hbank⟩ := goActive_keeps (decided s)
    refine ⟨congrArg (·.ownState) hv, congrArg (·.window) hv, congrArg (·.working) hv, ?_, ⟨q, hq, hkind, hstate⟩, hbank, hport,
      hsame⟩
    change ({ v.sweep with auditTimer := apDecode v.straps.ap } : Sweep) = _
    rw [hsweep, hstraps]

/-! ### Admissions of the sweep unit's own work (R144 to R147, R162, R165) -/

theorem allActive_iff (s : State) : allActive s = true ↔ ∀ j, j < s.n → j = s.own ∨ (viewAt s j).state = .active := by
  simp [allActive]

/-- What the sweep unit's place does, the step settled: it is the last of the pool, its stripe has an entry, and nothing
but the home and the sweep unit's own record has moved. -/
theorem settle_admitted (p : Place) (w : Sweep) (s : State) :
    ∃ t, settle ((takePlace p s).setSweep w) = t ∧ t.sweep = w ∧ t.home.pool = s.home.pool ++ [p] ∧
      t.home.hasEntry p.stripe = true ∧ t = { s with sweep := t.sweep, home := t.home } :=
  ⟨_, rfl, rfl, takePlace_pool p s, takePlace_settled p s, rfl⟩

theorem auditAttempt_skipped {s : State} (h : allActive s = false) : auditAttempt s = auditAdvance s := by
  simp [auditAttempt, h]

theorem auditAttempt_admitted {s : State} (h : allActive s = true) (hroom : roomFor s s.sweep.auditPtr = true) :
    auditAttempt s = admitAudit false s := by
  simp [auditAttempt, h, hroom]

theorem auditAttempt_deferred {s : State} (h : allActive s = true) (hroom : roomFor s s.sweep.auditPtr = false) :
    auditAttempt s = s.setSweep (if s.sweep.deferral < 7 then { s.sweep with deferral := s.sweep.deferral + 1 }
      else { s.sweep with deferral := s.sweep.deferral + 1, urgent := true, auditPhase := .waiting }) := by
  have hlimit : Config.urgentLimit = 8 := rfl
  simp only [auditAttempt, h, hroom, hlimit, Bool.not_true, Bool.false_eq_true, if_false]
  split
  next hlast => rw [if_neg (by omega)]
  next hlast => rw [if_pos (by omega)]

/-- Settles O59: the audit's attempt by its three branches, then the admissions by their room. -/
theorem auditsAreAdmittedByRoom : Obligations.AuditsAreAdmittedByRoom := by
  refine ⟨fun s htimer hphase => ?period, fun s => ⟨fun hphase hroom => ?urgent, fun hstep hroom => ?own, fun hstep hpause => ?pause⟩⟩
  case period =>
    have hrun : exec .auditPeriodExpiry s = .next (settle (auditAttempt s)) :=
      if_pos (by simp [Option.isSome_iff_ne_none, htimer, hphase])
    rw [hrun]
    refine ⟨fun hall => ?_, fun hall hroom => ?_, fun hall hroom hcount => ?_, fun hall hroom hcount => ?_⟩
    · rw [auditAttempt_skipped (Bool.eq_false_iff.2 fun h => hall ((allActive_iff s).1 h))]
      rfl
    · rw [auditAttempt_admitted ((allActive_iff s).2 hall) hroom]
      obtain ⟨t, ht, hspec⟩ := settle_admitted (auditPlace s.sweep.auditPtr false)
        { s.sweep with deferral := 0, urgent := false, auditPhase := .admitted } s
      exact ⟨t, congrArg Host.Outcome.next ht, hspec⟩
    · rw [auditAttempt_deferred ((allActive_iff s).2 hall) hroom, if_pos hcount]
      rfl
    · rw [auditAttempt_deferred ((allActive_iff s).2 hall) hroom, if_neg (by omega), hcount]
      rfl
  case urgent =>
    have hrun : exec .urgentAuditAdmission s = .next (settle (admitAudit true s)) :=
      if_pos (by simp [urgentDue, hphase, hroom])
    obtain ⟨t, ht, hspec⟩ := settle_admitted (auditPlace s.sweep.auditPtr true)
      { s.sweep with deferral := 0, urgent := false, auditPhase := .admitted } s
    exact ⟨t, hrun.trans (congrArg Host.Outcome.next ht), hspec⟩
  case own =>
    have hrun : exec .ownRecomputeAdmission s = .next (settle (offerRecompute s.sweep.rebuildPtr s)) :=
      if_pos (by simp [recomputeDue, hstep, hroom])
    obtain ⟨t, ht, hspec⟩ := settle_admitted (recomputePlace s.sweep.rebuildPtr) { s.sweep with rebuildStep := .recomputing } s
    refine ⟨t, hrun.trans (congrArg Host.Outcome.next (Eq.trans ?_ ht)), hspec⟩
    rw [offerRecompute, if_pos hroom]
    rfl
  case pause =>
    change execRebuildPauseExpiry s = _
    rw [execRebuildPauseExpiry, if_pos (by simp [Option.isSome_iff_ne_none, hstep, hpause])]
    rfl

end Sys2Proof.Machine
end

section
/-! PROOFS. Replies taken by slots: the local port's entries, the member writes and the operations go on with their outcomes
(R73, R92, R95, R97, R101 to R107, R113 to R115, R128). -/

namespace Sys2Proof.Machine

/-! ### The use of a slot ended by its reply (R73) -/

/-- What the end of slot `n`'s use by the reply at the inbox's head leaves: the unit's record `tu` and the link `l`. -/
structure UseEnded (s : State) (n : Nat) (rest : List Msg) (tu : TxnUnit) (l : Link) : Prop where
  freed : SlotFreed (s.setTu tu) n
  others : ∀ k, k ≠ n → slotAt (s.setTu tu) k = slotAt s k
  count : tu.slots.length = s.tu.slots.length
  asks : tu.asks = s.tu.asks
  inbox : l.inbox = rest
  inbound : l.inbound = s.link.inbound
  replies : l.replies = s.link.replies
  notices : l.notices = s.link.notices
  waiters : l.waiters = s.link.waiters
  places : ∀ u : State, u.holder = s.holder → u.link = l → freePlaces u = freePlaces s

theorem detach_request_replies (b : Bus) : (b.detach .request).detachedFrom .reply = b.detachedFrom .reply := by
  cases b with
  | own sel k d => cases sel <;> cases d <;> rfl
  | free => rfl
  | other => rfl

theorem withdrawCopy_detached (n : Nat) (s : State) :
    (withdrawCopy n s).link.bus.detachedFrom .reply = s.link.bus.detachedFrom .reply := by
  unfold withdrawCopy withdraw
  dsimp only
  split
  · rfl
  · split
    · exact detach_request_replies _
    · rfl

theorem useEnded_endSlot {s : State} {n : Nat} {rest : List Msg} (h : n < s.tu.slots.length) :
    UseEnded s n rest (endSlot n (s.setLink { s.link with inbox := rest })).tu
      (endSlot n (s.setLink { s.link with inbox := rest })).link := by
  let v : State := s.setLink { s.link with inbox := rest }
  let w : State := setSlot n { (slotAt v n).stopped with state := .free, owner := none } v
  obtain ⟨hreplies, hnotices, hinbound, hinbox, hwaiters⟩ := withdrawCopy_link n w
  refine ⟨SlotFreed.of_tu (slotFreed_endSlot (s := v) h) rfl, fun k hk => ?_, ?_, ?_, hinbox, hinbound, hreplies, hnotices,
    hwaiters, fun u hholder hlink => ?_⟩
  · exact endSlot_other (s := v) hk.symm
  · simp [endSlot, setSlot, setAt]
  · simp [endSlot, setSlot]
  · have hbus := withdrawCopy_detached n w
    have hq : (endSlot n v).link.replies = s.link.replies := hreplies
    have hb : (endSlot n v).link.bus.detachedFrom .reply = s.link.bus.detachedFrom .reply := hbus
    have hl : u.link = (endSlot n v).link := hlink
    simp only [freePlaces, hholder, hl, hq, hb]

/-- A final reply or NOT_READY a slot takes ends the slot's use, and its outcome goes to the slot's owner (R73). -/
theorem takes_ends {s : State} {m : Msg} {rest : List Msg} {o : Owner} (h : Takes s m rest o) :
    ∃ tu l, UseEnded s m.tag rest tu l ∧
      (takeReply m.kind takeFinal s =
        settle (handOutcome m.tag (slotAt s m.tag) (.replied m) ((s.setTu tu).setLink l))) ∧
      (takeReply m.kind takeNotReady s =
        settle (handOutcome m.tag (slotAt s m.tag) .notReady ((s.setTu tu).setLink l))) := by
  let v : State := s.setLink { s.link with inbox := rest }
  have hend : endSlot m.tag v = (s.setTu (endSlot m.tag v).tu).setLink (endSlot m.tag v).link := endSlot_eq m.tag v
  refine ⟨_, _, useEnded_endSlot h.tag, (takeReply_of_takes h takeFinal).trans ?_, (takeReply_of_takes h takeNotReady).trans ?_⟩
  · exact congrArg (fun u => settle (handOutcome m.tag (slotAt s m.tag) (.replied m) u)) hend
  · exact congrArg (fun u => settle (handOutcome m.tag (slotAt s m.tag) .notReady u)) hend

/-! ### O50: local entries -/

section
variable {s u : State} {e : LocalEntry} {m : Msg}

theorem finishRead_eq (e : LocalEntry) (w : Word) (s : State) :
    finishRead e w s = s.setPort { entryLeft s e.addr with ack := true, ldo := maskLanes e.lanes w, lerr := false } := rfl

theorem readOutcome_ok {w : Word} (hst : m.status = .ok) (hw : m.f.payload = [w]) :
    readOutcome e (.replied m) s = finishRead e w s := by
  simp [readOutcome, okWord, hst, hw]

theorem readOutcome_lost (hst : m.status ≠ .ok) (hph : e.phase = .second) :
    readOutcome e (.replied m) s = finishReadLost e s := by
  simp [readOutcome, okWord, hst, hph]

theorem readOutcome_second (hst : m.status ≠ .ok) (hph : e.phase = .first)
    (hreach : reachable s (homeOf s.n e.stripe) = true) :
    readOutcome e (.replied m) s = addAsk (secondAsk s e) (secondPhase e.addr s) := by
  simp [readOutcome, okWord, hst, hph, hreach]

theorem handOutcome_port {n addr : Nat} {x : Slot} {o : Outcome} (h : x.owner = some (.port addr)) :
    handOutcome n x o s = portOutcome addr o s := by
  simp [handOutcome, h]

end

/-- Settles O50: the reply ends its slot's use, and the entry takes the outcome by its phase and status. -/
theorem localEntriesGoOn : Obligations.LocalEntriesGoOn := by
  refine ⟨fun m rest e s htakes he hw => ?reads, fun m rest e s htakes he hw => ?writes⟩
  all_goals
    obtain ⟨tu, l, hend, hfinal, hready⟩ := takes_ends htakes
    rw [handOutcome_port htakes.owner] at hfinal hready
  case reads =>
    rw [portOutcome_read (s := (s.setTu tu).setLink l) he hw] at hfinal
    intro done
    refine ⟨fun w hk hst hpay => ?_, fun w hk hst hpay => ?_, fun hk hst hph => ?_, fun hk hst hph hreach => ?_⟩
    · rw [readOutcome_ok hst hpay, hk] at hfinal
      exact ⟨_, congrArg Host.Outcome.next hfinal,
        ⟨rfl, hend.freed, hend.inbox, hend.asks, rfl, rfl, rfl, rfl, sameRecord_of_fixed rfl⟩, rfl⟩
    · rw [readOutcome_ok hst hpay, hk] at hfinal
      exact ⟨_, congrArg Host.Outcome.next hfinal,
        ⟨rfl, hend.freed, hend.inbox, hend.asks, rfl, rfl, rfl, rfl, sameRecord_of_fixed rfl⟩, rfl⟩
    · rw [readOutcome_lost (by rw [hst]; decide) hph, hk] at hfinal
      exact ⟨_, congrArg Host.Outcome.next hfinal,
        ⟨rfl, hend.freed, hend.inbox, hend.asks, rfl, rfl, rfl, rfl, sameRecord_of_fixed rfl⟩, rfl⟩
    · rw [readOutcome_second (s := (s.setTu tu).setLink l) (by rw [hst]; decide) hph hreach, secondPhase_eq, secondAsk_eq, hk] at hfinal
      refine ⟨_, congrArg Host.Outcome.next hfinal, hend.freed, ?_, rfl, rfl, rfl, rfl, sameRecord_of_fixed rfl⟩
      change tu.asks ++ _ = _
      rw [hend.asks, hw]
      rfl
  case writes =>
    rw [portOutcome_write (s := (s.setTu tu).setLink l) he hw] at hfinal hready
    intro left fine lost freed
    have hdone : ∀ c, exec c s = .next (takeReply m.kind takeFinal s) → ∃ t, exec c s = .next t ∧ freed t ∧
        t.tu.asks = s.tu.asks ∧ if m.status = .ok then fine t else lost t := by
      intro c hc
      rw [hfinal] at hc
      refine ⟨_, hc, ?_⟩
      by_cases hst : m.status = .ok
      · rw [if_pos hst, writeOutcome, if_pos (beq_iff_eq.2 hst), finishWrite_eq]
        exact ⟨⟨hend.freed, hend.inbox, rfl, rfl, rfl, sameRecord_of_fixed rfl⟩, hend.asks, rfl, rfl, rfl⟩
      · rw [if_neg hst, writeOutcome, if_neg fun h => hst (beq_iff_eq.1 h), finishWriteLost_eq]
        exact ⟨⟨hend.freed, hend.inbox, rfl, rfl, rfl, sameRecord_of_fixed rfl⟩, hend.asks, rfl, rfl, rfl⟩
    refine ⟨fun hk => hdone _ (by rw [hk]; rfl), fun hk => hdone _ (by rw [hk]; rfl), fun hk hph hreach => ?_⟩
    have hsecond : writeOutcome e .notReady ((s.setTu tu).setLink l) =
        addAsk (secondAsk ((s.setTu tu).setLink l) e) (secondPhase e.addr ((s.setTu tu).setLink l)) := by
      exact if_pos (Bool.and_eq_true_iff.2 ⟨beq_iff_eq.2 hph, hreach⟩)
    rw [hsecond, secondPhase_eq, secondAsk_eq, hk] at hready
    refine ⟨_, congrArg Host.Outcome.next hready, ⟨hend.freed, hend.inbox, rfl, rfl, rfl, sameRecord_of_fixed rfl⟩, rfl, rfl, ?_⟩
    change tu.asks ++ _ = _
    rw [hend.asks, hw]
    rfl

end Sys2Proof.Machine
end

section
/-! PROOFS. What a requester is told, and the ends of member writes (R75, R79, R91 to R93, R97, R98, R113 to R115). -/

namespace Sys2Proof.Machine

/-! ### A requester told (R75, R79, R98) -/

/-- The states in which a requester is told the same: what its answer depends on has not moved. -/
structure SameForRequesters (s v : State) : Prop where
  mem : v.mem = s.mem
  straps : v.straps = s.straps
  filter : v.filter = s.filter
  replies : v.link.replies = s.link.replies
  waiters : v.link.waiters = s.link.waiters
  places : freePlaces v = freePlaces s
  port : v.port = s.port
  causes : v.causes = s.causes
  count : v.tu.slots.length = s.tu.slots.length
  slots : ∀ k addr, (slotAt s k).owner = some (.port addr) → slotAt v k = slotAt s k

section
variable {s v t : State} {who : Requester} {c : Counters} {ok : Bool} {src tag : Nat} {seq : Bool}

theorem SameForRequesters.canReply (h : SameForRequesters s v) (hs : CanReply s src) : CanReply v src :=
  ⟨by simpa only [viewAt, h.mem] using hs.admitted, h.waiters ▸ hs.noWaiter, h.places ▸ hs.room⟩

theorem SameForRequesters.replyTo (h : SameForRequesters s v) (m : Msg) :
    Machine.replyTo v src tag seq m = Machine.replyTo s src tag seq m := by
  simp only [Machine.replyTo, State.own, h.mem, h.straps]

theorem HoldTold.of_same (h : SameForRequesters s v) (htold : HoldTold v t who) : HoldTold s t who := by
  cases who with
  | peer src tag seq =>
    intro hcan
    obtain ⟨hfilter, hreplies, hwaiters⟩ := htold (h.canReply hcan)
    refine ⟨hfilter.trans ?_, ?_, hwaiters.trans h.waiters⟩
    · rw [parkedWith, h.filter]
      rfl
    · rw [hreplies, h.replies, h.replyTo]
  | own n =>
    intro addr hn hf ho
    have hslot := h.slots n addr ho
    obtain ⟨hturned, hfilter, hreplies⟩ := htold addr (h.count ▸ hn) (hslot ▸ hf) (hslot ▸ ho)
    exact ⟨hturned.trans (by rw [hslot]), hfilter.trans h.filter, hreplies.trans h.replies⟩
  | internalAudit | internalRebuild | internalList | nobody => trivial

theorem WriteTold.of_same (h : SameForRequesters s v) (htold : WriteTold v t c ok who) : WriteTold s t c ok who := by
  cases who with
  | peer src tag seq =>
    obtain ⟨hport, hcauses, hcounters, hreply⟩ := htold
    refine ⟨hport.trans h.port, hcauses.trans h.causes, hcounters, fun hcan => ?_⟩
    obtain ⟨hfilter, hreplies⟩ := hreply (h.canReply hcan)
    refine ⟨hfilter.trans ?_, ?_⟩
    · rw [doneWith, h.filter]
      rfl
    · rw [hreplies, h.replies, h.replyTo]
  | own n =>
    intro addr e hn hf ho he hw
    have hslot := h.slots n addr ho
    have he' : startedEntry v addr = some e := by rw [startedEntry, h.port]; exact he
    obtain ⟨hfreed, hfilter, hreplies, hrest⟩ := htold addr e (h.count ▸ hn) (hslot ▸ hf) (hslot ▸ ho) he' hw
    refine ⟨hfreed, hfilter.trans h.filter, hreplies.trans h.replies, ?_⟩
    rw [entryLeft, h.port, h.causes] at hrest
    exact hrest
  | internalAudit | internalRebuild | internalList | nobody =>
    obtain ⟨hfilter, hreplies, hport, hcauses, hcounters⟩ := htold
    exact ⟨hfilter.trans h.filter, hreplies.trans h.replies, hport.trans h.port, hcauses.trans h.causes, hcounters⟩

theorem HoldTold.settle (htold : HoldTold s t who) : HoldTold s (settle t) who := by
  cases who <;> exact htold

theorem WriteTold.settle (htold : WriteTold s t c ok who) : WriteTold s (settle t) c ok who := by
  cases who <;> exact htold

/-- A reply at the end of work already taken is queued at once to a requester that can be answered. -/
theorem emitReply_canReply (h : CanReply s src) (m : Msg) :
    emitReply { m with dest := .station src, tag := tag, seq := seq } s =
      (filterDone { m with dest := .station src, tag := tag, seq := seq } s).setLink { s.link with
        replies := { s.link.replies with q := s.link.replies.q ++ [replyTo s src tag seq m] } } := by
  have hdrop : replyDropped s { m with dest := .station src, tag := tag, seq := seq } = false :=
    replyDropped_of_available rfl h.admitted
  rw [emitReply, hdrop, if_neg Bool.false_ne_true, if_pos (by simp [h.noWaiter, h.room]), filterDone_eq]
  rfl

/-- HOLD told to a requester. -/
theorem holdRequester_told (who : Requester) (s : State) : HoldTold s (holdRequester who s) who := by
  cases who with
  | peer src tag seq =>
    intro hcan
    have hcan' : CanReply (s.setFilter (parkedWith s src tag seq)) src := ⟨hcan.admitted, hcan.noWaiter, hcan.room⟩
    have heq : holdRequester (.peer src tag seq) s = _ :=
      (congrArg (tellRequester (.peer src tag seq) { kind := .hold }) filterPark_peer).trans
        (emitReply_canReply (tag := tag) (seq := seq) hcan' { kind := .hold })
    rw [heq, filterDone_of_not_final rfl]
    exact ⟨rfl, rfl, rfl⟩
  | own n =>
    intro addr hn hf ho
    have heq : holdRequester (.own n) s = _ := ownReply_hold (s := s) hf
    rw [heq]
    exact ⟨by simp [slotAt, setSlot, setAt, hn], rfl, rfl⟩
  | internalAudit | internalRebuild | internalList | nobody => trivial

/-- WRITE_RSP told to a requester. -/
theorem tellRequester_write (who : Requester) (s : State) :
    WriteTold s (tellRequester who { kind := .writeRsp, status := if ok then .ok else .lost } s) s.counters ok who := by
  cases who with
  | peer src tag seq =>
    obtain ⟨-, -, -, -, -, hport, hcounters, hcauses, -⟩ := emitReply_keeps
      { kind := .writeRsp, status := if ok then .ok else .lost, dest := .station src, tag := tag, seq := seq } s
    refine ⟨hport, hcauses, hcounters, fun hcan => ?_⟩
    have heq := emitReply_canReply (tag := tag) (seq := seq) hcan { kind := .writeRsp, status := if ok then .ok else .lost }
    rw [filterDone_final (src := src) rfl rfl] at heq
    exact ⟨congrArg State.filter heq, congrArg (·.link.replies.q) heq⟩
  | own n =>
    intro addr e hn hf ho he hw
    have he' : startedEntry (endSlot n s) addr = some e := by simpa [startedEntry] using he
    have heq : tellRequester (.own n) { kind := .writeRsp, status := if ok then .ok else .lost } s =
        writeOutcome e (.replied { kind := .writeRsp, status := if ok then .ok else .lost }) (endSlot n s) :=
      (ownReply_final (s := s) (m := { kind := .writeRsp, status := if ok then .ok else .lost }) hf ho rfl).trans
        (portOutcome_write he' hw _)
    have hlink : (endSlot n s).link.replies = s.link.replies := (withdrawCopy_link n _).1
    obtain ⟨-, hfilter, -, -, -, hport, hcounters, hcauses, -⟩ := endSlot_keeps n s
    rw [heq]
    cases ok with
    | true =>
      change SlotFreed (endSlot n s) n ∧ (endSlot n s).filter = _ ∧ (endSlot n s).link.replies = _ ∧
        entryLeft (endSlot n s) e.addr = _ ∧ (endSlot n s).causes = _ ∧ (endSlot n s).counters = _
      exact ⟨slotFreed_endSlot hn, hfilter, hlink, by rw [entryLeft, hport]; rfl, hcauses, hcounters⟩
    | false =>
      change SlotFreed (finishWriteLost e (endSlot n s)) n ∧ (finishWriteLost e (endSlot n s)).filter = _ ∧
        (finishWriteLost e (endSlot n s)).link.replies = _ ∧ (finishWriteLost e (endSlot n s)).port = _ ∧
        (finishWriteLost e (endSlot n s)).causes = _ ∧ (finishWriteLost e (endSlot n s)).counters = _
      rw [finishWriteLost_eq]
      exact ⟨slotFreed_endSlot hn, hfilter, hlink, by rw [entryLeft, hport]; rfl, by rw [hcauses], by rw [hcounters]⟩
  | internalAudit | internalRebuild | internalList | nobody => exact ⟨rfl, rfl, rfl, rfl, rfl⟩

end

/-! ### What telling leaves alone -/

section
variable (who : Requester) (m : Msg) (s : State)

theorem emitReply_inbox : (emitReply m s).link.inbox = s.link.inbox := by
  unfold emitReply
  split
  · rw [filterDone_eq]; rfl
  · split
    · rw [filterDone_eq]; rfl
    · rfl

theorem ownReply_inbox (n : Nat) : (ownReply n m s).link.inbox = s.link.inbox := by
  have hend : (endSlot n s).link.inbox = s.link.inbox := (withdrawCopy_link n _).2.2.2.1
  have hport : ∀ addr o, (portOutcome addr o (endSlot n s)).link = (endSlot n s).link := fun addr o =>
    (portOutcome_keeps addr o _).2.1
  unfold ownReply
  dsimp only
  split
  · rfl
  · split
    · rfl
    · rfl
    · split
      · rw [hport, hend]
      · exact hend

theorem tellRequester_inbox : (tellRequester who m s).link.inbox = s.link.inbox := by
  cases who with
  | peer src tag seq => exact emitReply_inbox _ s
  | own n => exact ownReply_inbox m s n
  | internalAudit | internalRebuild | internalList | nobody => rfl

theorem holdRequester_inbox : (holdRequester who s).link.inbox = s.link.inbox := by
  rw [holdRequester, tellRequester_inbox, filterPark_eq]
  rfl

theorem portOutcome_slots (addr : Nat) (o : Outcome) : (portOutcome addr o s).tu.slots = s.tu.slots := by
  cases he : startedEntry s addr with
  | none => simp only [portOutcome, he]
  | some e =>
    cases hw : e.isWrite with
    | true =>
      rw [portOutcome_write he hw]
      unfold writeOutcome
      (repeat' split) <;> rfl
    | false =>
      rw [portOutcome_read he hw]
      unfold readOutcome
      (repeat' split) <;> rfl

theorem ownReply_slotAt {n k : Nat} (h : k ≠ n) : slotAt (ownReply n m s) k = slotAt s k := by
  have hset : ∀ x, slotAt (setSlot n x s) k = slotAt s k := fun x => by simp [slotAt, setSlot, setAt, h.symm]
  unfold ownReply
  dsimp only
  split
  · rfl
  · split
    · exact hset _
    · exact hset _
    · split
      · rw [slotAt, portOutcome_slots]
        exact endSlot_other h.symm
      · exact endSlot_other h.symm

theorem ownReply_free {n : Nat} (h : (slotAt s n).state = .free) : ownReply n m s = s := by
  simp [ownReply, Slot.inFlight, h]

theorem SlotFreed.tellRequester {k : Nat} (h : SlotFreed s k) : SlotFreed (tellRequester who m s) k := by
  cases who with
  | peer src tag seq => exact h.of_tu (emitReply_keeps _ s).2.1
  | own n =>
    by_cases hk : k = n
    · rw [Machine.tellRequester, ownReply_free _ _ (hk ▸ h.1)]
      exact h
    · simpa only [SlotFreed, Machine.tellRequester, ownReply_slotAt m s hk] using h
  | internalAudit | internalRebuild | internalList | nobody => exact h

theorem SlotFreed.holdRequester {k : Nat} (h : SlotFreed s k) : SlotFreed (holdRequester who s) k := by
  rw [Machine.holdRequester, filterPark_eq]
  exact SlotFreed.tellRequester who _ _ h

/-- HOLD moves no port, counter or cause. -/
theorem holdRequester_blocks : (holdRequester who s).port = s.port ∧ (holdRequester who s).counters = s.counters ∧
    (holdRequester who s).causes = s.causes := by
  cases who with
  | peer src tag seq =>
    obtain ⟨-, -, -, -, -, hport, hcounters, hcauses, -⟩ :=
      emitReply_keeps { kind := .hold, dest := .station src, tag := tag, seq := seq } (filterPark (.peer src tag seq) true s)
    rw [filterPark_eq] at hport hcounters hcauses
    exact ⟨hport, hcounters, hcauses⟩
  | own n =>
    by_cases hf : (slotAt s n).inFlight = true
    · have heq : Machine.holdRequester (.own n) s = _ := ownReply_hold (s := s) hf
      rw [heq]
      exact ⟨rfl, rfl, rfl⟩
    · have heq : Machine.holdRequester (.own n) s = s := by
        simp only [Machine.holdRequester, Machine.tellRequester, filterPark, ownReply, Bool.not_eq_true _ ▸ hf, Bool.not_false, if_true]
      rw [heq]
      exact ⟨rfl, rfl, rfl⟩
  | internalAudit | internalRebuild | internalList | nobody => exact ⟨rfl, rfl, rfl⟩

end

/-! ### The place of a write moves on, or is freed (R92, R93, R97, R98) -/

/-- What is left when the place `p` that `pred` names was changed by `g`, with HOLD to its requester, or freed when it
has none. -/
structure Requeued (s v t : State) (pred : Place → Bool) (g : Place → Place) (p : Place) : Prop where
  freed : ∀ n, SlotFreed v n → SlotFreed t n
  inbox : t.link.inbox = v.link.inbox
  blocks : t.mem = v.mem ∧ t.holder = v.holder ∧ t.sweep = v.sweep ∧ t.bank = v.bank ∧ t.port = v.port ∧ t.counters = v.counters
  fixed : t.fixed = v.fixed
  held : p.who ≠ .nobody → t.home.pool = v.home.pool.eraseP pred ++ [g p] ∧ HoldTold s t p.who
  left : p.who = .nobody → t.home.pool = v.home.pool.eraseP pred ∧ t.link = v.link ∧ t.filter = v.filter
  entry : ∀ st e, v.home.entry st = some e → e.recompute.isSome = true → t.home.entry st = some e

theorem not_spent_of_recompute {h : Home} {e : Entry} (he : e.recompute.isSome = true) : h.spent e = false := by
  cases hr : e.recompute <;> simp_all [Home.spent]

section
variable {s v : State} {pred : Place → Bool} {p : Place}

theorem requeued (g : Place → Place) (hsame : ∀ h, SameForRequesters s (v.setHome h))
    (hfind : v.home.pool.find? pred = some p) :
    Requeued s v (settle (if p.who == .nobody then freePlace pred v else holdRequester p.who (movePlace pred g v))) pred g p := by
  by_cases hwho : p.who = .nobody
  · rw [if_pos (beq_iff_eq.2 hwho)]
    exact ⟨fun n h => h, rfl, ⟨rfl, rfl, rfl, rfl, rfl, rfl⟩, rfl, fun h => absurd hwho h, fun _ => ⟨rfl, rfl, rfl⟩,
      fun st e he hr => entry_settle he (not_spent_of_recompute hr)⟩
  · rw [if_neg fun h => hwho (beq_iff_eq.1 h), movePlace_of_find hfind]
    let w : State := v.setHome { v.home with pool := v.home.pool.eraseP pred ++ [g p] }
    obtain ⟨hmem, hholder, hhome, hsweep, hbank⟩ := holdRequester_keeps p.who w
    obtain ⟨hport, hcounters, -⟩ := holdRequester_blocks p.who w
    refine ⟨fun n h => SlotFreed.holdRequester p.who w h, holdRequester_inbox p.who w,
      ⟨hmem, hholder, hsweep, hbank, hport, hcounters⟩, ?_, fun _ => ⟨congrArg Home.pool hhome, ?_⟩, fun h => absurd h hwho,
      fun st e he hr => entry_settle (s := holdRequester p.who w) ?_ (not_spent_of_recompute hr)⟩
    · simp
    · exact ((holdRequester_told p.who w).of_same (hsame _)).settle
    · rw [hhome]
      exact he

theorem toConversion_requeued (k : WorkKind) (hsame : ∀ h, SameForRequesters s (v.setHome h))
    (hfind : v.home.pool.find? pred = some p) :
    Requeued s v (settle (toConversion pred k p v)) pred (fun x => { x with kind := k, use := .waitHead }) p :=
  requeued _ hsame hfind

theorem toAnswer_requeued (hsame : ∀ h, SameForRequesters s (v.setHome h)) (hfind : v.home.pool.find? pred = some p) :
    Requeued s v (settle (toAnswer pred p v)) pred (fun x => { x with use := .answer }) p :=
  requeued _ hsame hfind

/-- A write that settles frees its place and tells its requester. -/
structure Settled (s v t : State) (pred : Place → Bool) (p : Place) (ok : Bool) : Prop where
  freed : ∀ n, SlotFreed v n → SlotFreed t n
  inbox : t.link.inbox = v.link.inbox
  blocks : t.mem = v.mem ∧ t.holder = v.holder ∧ t.sweep = v.sweep ∧ t.bank = v.bank
  fixed : t.fixed = v.fixed
  pool : t.home.pool = v.home.pool.eraseP pred
  told : WriteTold s t v.counters ok p.who

theorem settleWrite_settled {ok : Bool} (hsame : ∀ h, SameForRequesters s (v.setHome h)) :
    Settled s v (settle (settleWrite pred p (if ok then .ok else .lost) v)) pred p ok := by
  let w : State := freePlace pred v
  let m : Msg := { kind := .writeRsp, status := if ok then .ok else .lost }
  obtain ⟨hmem, hholder, hhome, hsweep, hbank⟩ := tellRequester_keeps p.who m w
  refine ⟨fun n h => SlotFreed.tellRequester p.who m w h, tellRequester_inbox p.who m w, ⟨hmem, hholder, hsweep, hbank⟩, ?_,
    congrArg Home.pool hhome, ?_⟩
  · simp
  · exact ((tellRequester_write p.who w).of_same (hsame _)).settle

end

/-! ### O51 -/

theorem UseEnded.sameForRequesters {s : State} {m : Msg} {rest : List Msg} {st : Nat} {tu : TxnUnit} {l : Link}
    (hend : UseEnded s m.tag rest tu l) (htakes : Takes s m rest (.member st)) (h : Home) :
    SameForRequesters s (((s.setTu tu).setLink l).setHome h) := by
  refine ⟨rfl, rfl, rfl, hend.replies, hend.waiters, hend.places _ rfl rfl, rfl, rfl, hend.count, fun k addr ho => ?_⟩
  refine hend.others k fun hk => ?_
  rw [hk, htakes.owner] at ho
  cases ho

theorem listRecompute_entry (st o : Nat) (s : State) (h : s.home.hasEntry st = true) :
    ∃ e, (listRecompute st o s).home.entry st = some e ∧ e.recompute.isSome = true ∧
      e.recompute = (s.home.entry st).map fun x => addRecompute o x.recompute := by
  obtain ⟨e, he⟩ : ∃ e, s.home.entry st = some e :=
    Option.isSome_iff_exists.1 (by simpa [Home.entry, Home.hasEntry] using h)
  refine ⟨{ e with recompute := some (addRecompute o e.recompute) }, ?_, rfl, ?_⟩
  · have hmap := entry_mapEntry s.home st (fun e => { e with recompute := some (addRecompute o e.recompute) }) fun _ => rfl
    exact hmap.trans (congrArg _ he)
  · rw [he]
    rfl

/-- A claim that writes no void word leaves the counters. -/
theorem runClaim_voidless {c : Claim} {s : State} (hvoids : claimVoids c = 0) (hlost : s.counters.lost ≤ 65535) :
    runClaim c s = s.setBank { s.bank with
      words := bankSetAll s.bank.words (claimWrites s.bank.words c), busy := none } := by
  have hsame : satAdd s.counters.lost 0 = s.counters.lost := Nat.min_eq_left hlost
  rw [runClaim, hvoids]
  change State.setCounters _ { s.counters with lost := satAdd s.counters.lost 0 } = _
  rw [hsame]
  rfl

/-- Settles O51: the outcome's case sends the write's place on; a completed application settles it, or keeps it as an answer
record. -/
theorem deltasReachParity : Obligations.DeltasReachParity := by
  refine ⟨fun m rest p s htakes hfind => ?outcomes, fun p b d o s hbusy hwork hop hin hfind hlost => ?applied⟩
  case outcomes =>
    obtain ⟨tu, l, hend, hfinal, hready⟩ := takes_ends htakes
    let v : State := (s.setTu tu).setLink l
    let pred := isMemberIn p.stripe m.tag
    have hsame := hend.sameForRequesters htakes
    have hfind' : v.home.pool.find? (isMemberIn p.stripe m.tag) = some p := hfind
    have hhand : ∀ o, handOutcome m.tag (slotAt s m.tag) o v = if (slotAt s m.tag).kind == .store then
        forwardOutcome pred p o v else updateOutcome pred p o v := fun o => by
      simp only [handOutcome, htakes.owner, memberOutcome, hfind', pred]
    rw [hhand] at hfinal hready
    intro others kept becomes
    have hbecomes : ∀ {t : State} {w : State} (g : Place → Place), w.link = l → w.tu = tu → w.filter = s.filter →
        w.mem = s.mem ∧ w.holder = s.holder ∧ w.sweep = s.sweep ∧ w.bank = s.bank ∧ w.port = s.port ∧ w.counters = s.counters →
        w.fixed = s.fixed → w.home.pool = s.home.pool → Requeued s w t pred g p → becomes t (g p) := by
      intro t w g hl htu hf ⟨h1, h2, h3, h4, h5, h6⟩ hfix hpool hr
      obtain ⟨hmem, hholder, hsweep, hbank, hport, hcounters⟩ := hr.blocks
      have hheld := hr.held
      have hleft := hr.left
      rw [hpool] at hheld hleft
      refine ⟨⟨hr.freed _ (hend.freed.of_tu htu), hr.inbox.trans (hl ▸ hend.inbox), hmem.trans h1, hholder.trans h2,
        hsweep.trans h3, sameRecord_of_fixed (hr.fixed.trans hfix)⟩, hbank.trans h4, hport.trans h5, hcounters.trans h6,
        hheld, fun hwho => ?_⟩
      obtain ⟨hp, hlink, hfilter⟩ := hleft hwho
      exact ⟨hp, by rw [hlink, hl, hend.replies], hfilter.trans hf⟩
    refine ⟨fun hkind => ?_, fun hkind => ?_, fun u kind => ?_⟩
    · rw [if_neg (by rw [hkind]; decide)] at hfinal hready
      refine ⟨fun d hk hst hpay => ?_, fun hk hst hentry => ?_, fun hk hst => ?_, fun hk => ?_⟩
      · simp only [updateOutcome, hst, hpay] at hfinal
        rw [movePlace_of_find (test := pred) hfind', hk] at hfinal
        exact ⟨_, congrArg Host.Outcome.next hfinal,
          ⟨hend.freed, hend.inbox, rfl, rfl, rfl, sameRecord_of_fixed rfl⟩, rfl, rfl, rfl, rfl, rfl, hend.replies⟩
      · simp only [updateOutcome, hst] at hfinal
        rw [hk] at hfinal
        let w : State := listRecompute p.stripe p.offset v
        have hr : Requeued s w _ pred _ p := toAnswer_requeued (fun h => hsame h) hfind'
        obtain ⟨e, he, hsome, hlist⟩ := listRecompute_entry p.stripe p.offset v hentry
        exact ⟨_, congrArg Host.Outcome.next hfinal,
          hbecomes (w := w) _ rfl rfl rfl ⟨rfl, rfl, rfl, rfl, rfl, rfl⟩ rfl rfl hr, e, hr.entry _ _ he hsome, hlist⟩
      · simp only [updateOutcome, hst] at hfinal
        rw [hk] at hfinal
        exact ⟨_, congrArg Host.Outcome.next hfinal, hbecomes (w := v) _ rfl rfl rfl ⟨rfl, rfl, rfl, rfl, rfl, rfl⟩ rfl rfl
          (toConversion_requeued .mergeWrite hsame hfind')⟩
      · simp only [updateOutcome] at hready
        rw [hk] at hready
        exact ⟨_, congrArg Host.Outcome.next hready, hbecomes (w := v) _ rfl rfl rfl ⟨rfl, rfl, rfl, rfl, rfl, rfl⟩ rfl rfl
          (toConversion_requeued .degradedWrite hsame hfind')⟩
    · rw [if_pos (beq_iff_eq.2 hkind)] at hfinal hready
      intro ended
      have hended : ∀ {t : State} {ok : Bool}, Settled s v t pred p ok → ended t ok := fun {t ok} h => by
        obtain ⟨hmem, hholder, hsweep, hbank⟩ := h.blocks
        exact ⟨⟨h.freed _ hend.freed, h.inbox.trans hend.inbox, hmem, hholder, hsweep, sameRecord_of_fixed h.fixed⟩,
          h.pool, hbank, h.told⟩
      refine ⟨fun hk => ?_, fun hk => ?_⟩
      · rw [hk] at hfinal
        exact ⟨_, congrArg Host.Outcome.next hfinal, hended (settleWrite_settled hsame)⟩
      · rw [hk] at hready
        exact ⟨_, congrArg Host.Outcome.next hready, hended (settleWrite_settled (ok := false) hsame)⟩
    · unfold memberOutcome
      split
      · rfl
      · split <;> rfl
  case applied =>
    intro others old kept
    have hvoids : claimVoids b.claim = 0 := by simp [claimVoids, hop]
    let ran : State := s.setBank { s.bank with
      words := bankSetAll s.bank.words (claimWrites s.bank.words b.claim), busy := none }
    have hran : runClaim b.claim s = ran := runClaim_voidless hvoids hlost
    have hreads : claimReads s.bank.words b.claim = [old] := by simp [claimReads, hop, old]
    have hrun : exec .bankClaimCompletion s = .next (settle (if isGood old then settleWrite (isApplying p.stripe) p .ok ran
        else toAnswer (isApplying p.stripe) p (listRecompute p.stripe o ran))) := by
      change execBankClaimCompletion s = _
      have hfind' : ran.home.pool.find? (isApplying p.stripe) = some p := hfind
      simp only [execBankClaimCompletion, hbusy, hin, Bool.not_true, Bool.false_eq_true, if_false, hwork, hran, hreads, claimDone,
        deltaApplied, hfind', List.headD_cons]
    refine ⟨fun hgood => ?_, fun hbad hentry => ?_⟩
    · rw [if_pos hgood] at hrun
      have h : Settled s ran _ (isApplying p.stripe) p true := settleWrite_settled (ok := true) fun h =>
        ⟨rfl, rfl, rfl, rfl, rfl, rfl, rfl, rfl, rfl, fun _ _ _ => rfl⟩
      obtain ⟨hmem, hholder, hsweep, hbank⟩ := h.blocks
      obtain ⟨hstraps, -, henables, -, -⟩ := sameRecord_of_fixed h.fixed
      refine ⟨_, hrun, ⟨h.inbox, hmem, hholder, hsweep, hstraps, henables⟩, h.pool, hbank.trans ?_, h.told⟩
      simp [ran, claimWrites, hop, mergeDecision, hgood, old, bankSetAll]
    · rw [if_neg (by rw [hbad]; decide)] at hrun
      have hr : Requeued s (listRecompute p.stripe o ran) _ (isApplying p.stripe) _ p := toAnswer_requeued (fun h =>
        ⟨rfl, rfl, rfl, rfl, rfl, rfl, rfl, rfl, rfl, fun _ _ _ => rfl⟩) hfind
      obtain ⟨hmem, hholder, hsweep, hbank, hport, hcounters⟩ := hr.blocks
      obtain ⟨hstraps, -, henables, -, -⟩ := sameRecord_of_fixed hr.fixed
      obtain ⟨e, he, hsome, hlist⟩ := listRecompute_entry p.stripe o ran hentry
      refine ⟨_, hrun, ⟨hr.inbox, hmem, hholder, hsweep, hstraps, henables⟩, hbank.trans ?_, hcounters, hport, hr.held, hr.left, e,
        hr.entry _ _ he hsome, hlist⟩
      change ran.bank = _
      simp [ran, claimWrites, hop, mergeDecision, hbad, old, bankSetAll]

end Sys2Proof.Machine
end

section
/-! PROOFS. Results recorded by an exclusive operation, and the rebuild's own replies (R85, R95, R128, R139, R149, R164, R165,
R167). -/

namespace Sys2Proof.Machine

/-! ### What a result changes -/

section
variable {st k first : Nat} {op : Op} {s : State} {f : Fields} {m : Msg} {o : Outcome}

/-- An operation with an ask, a slot or a claim outstanding waits (R95). -/
theorem opAdvance_waits (h : opAt s st = some op) (hwait : op.toAsk ≠ [] ∨ op.outstanding ≠ 0 ∨ op.claims ≠ 0) :
    opAdvance st s = s := by
  have hopen : op.complete = false := by
    rcases hwait with h | h | h <;> simp [Op.complete, h]
  simp only [opAdvance, h, hopen, Bool.false_eq_true, if_false]

theorem accAt_accumulate (h : opAt s st = some op) (hacc : op.acc < s.home.accs.length) (ws : List (Option Word)) :
    accAt (accumulate st first ws s) op.acc = if op.step.accumulates then
      (accAt s op.acc).contributeFrom op.list.lists first ws else accAt s op.acc := by
  simp only [accumulate, h]
  split
  · rw [accAt_mapAcc _ hacc]
  · rfl

theorem accumulate_idle (h : opAt s st = some op) (hstep : op.step.accumulates = false) (ws : List (Option Word)) :
    accumulate st first ws s = s := by
  simp only [accumulate, h, hstep, Bool.false_eq_true, if_false]

theorem accumulate_pool (ws : List (Option Word)) : (accumulate st first ws s).home.pool = s.home.pool := by
  unfold accumulate
  (repeat' split) <;> rfl

theorem recordOutcome_pool (kind : Kind) : (recordOutcome st kind f o s).home.pool = s.home.pool := by
  unfold recordOutcome
  split
  · exact accumulate_pool _
  · rfl
  · (repeat' split) <;> rfl
  · rfl
  · exact accumulate_pool _

theorem opAt_recordResult (h : opAt s st = some op) (r : MemberResult) :
    opAt (recordResult st k r s) st = some { op with results := op.results.set k r } := by
  rw [recordResult, opAt_mapOp, h]
  rfl

/-- A member gone is recorded unavailable, its asks are dropped, and an AUDIT past its folds stops (R95, R128, R150). -/
theorem opAt_memberGone (h : opAt s st = some op) :
    opAt (stopAudit st (memberUnavailable st k s)) st = some { op with
      results := op.results.set k .unavailable
      step := if op.step.stopsAtOnce then .stopping else op.step
      toAsk := if op.step.stopsAtOnce then [] else op.toAsk.filter fun a => a.f.position != k } := by
  rw [stopAudit, opAt_mapOp, memberUnavailable, opAt_mapOp, h, Option.map_some, Option.map_some]
  dsimp only
  cases op.step.stopsAtOnce <;> rfl

/-- A plain STORE answered: the good STORE of an audit's repair counts a recovered word (R139). -/
theorem recordOutcome_stored (h : opAt s st = some op) :
    recordOutcome st .store f (.replied m) s =
      if op.step = .offStore ∧ f.voids = [false] then countRecovered s else s := by
  simp only [recordOutcome, h, Bool.and_eq_true, beq_iff_eq]

end

/-! ### O52 -/

/-- What an outcome handed to an operation leaves alone, from the state `s` before the reply of slot `n` was taken. -/
structure OutcomeTaken (s : State) (n : Nat) (rest : List Msg) (u : State) : Prop where
  freed : SlotFreed u n
  inbox : u.link.inbox = rest
  asks : u.tu.asks = s.tu.asks
  mem : u.mem = s.mem
  holder : u.holder = s.holder
  port : u.port = s.port
  sweep : u.sweep = s.sweep
  pool : u.home.pool = s.home.pool
  bank : u.bank = s.bank
  record : sameRecord s u

/-- A reply an operation's slot takes: the state with one slot fewer outstanding, where its outcome is recorded. -/
theorem takes_opOutcome {s : State} {m : Msg} {rest : List Msg} {st : Nat} {op : Op} (htakes : Takes s m rest (.op st))
    (hop : opAt s st = some op) :
    ∃ d : State, opAt d st = some { op with outstanding := op.outstanding - 1 } ∧ d.home.accs = s.home.accs ∧
      d.counters = s.counters ∧
      (takeReply m.kind takeFinal s =
        settle (opAdvance st (recordOutcome st (slotAt s m.tag).kind (slotAt s m.tag).f (.replied m) d))) ∧
      (takeReply m.kind takeNotReady s =
        settle (opAdvance st (recordOutcome st (slotAt s m.tag).kind (slotAt s m.tag).f .notReady d))) ∧
      ∀ kind f o, OutcomeTaken s m.tag rest (recordOutcome st kind f o d) := by
  obtain ⟨tu, l, hend, hfinal, hready⟩ := takes_ends htakes
  let v : State := (s.setTu tu).setLink l
  let d : State := mapOp st (fun op => { op with outstanding := op.outstanding - 1 }) v
  have hhand : ∀ o, handOutcome m.tag (slotAt s m.tag) o v = opOutcome st (slotAt s m.tag).kind (slotAt s m.tag).f o v :=
    fun o => by simp only [handOutcome, htakes.owner]
  rw [hhand] at hfinal hready
  refine ⟨d, ?_, rfl, rfl, hfinal, hready, fun kind f o => ?_⟩
  · have hv : opAt v st = some op := hop
    rw [opAt_mapOp, hv]
    rfl
  · obtain ⟨hmem, hlink, htu, -, hholder, hsweep, hport, -, hbank⟩ := recordOutcome_keeps st kind f o d
    exact ⟨hend.freed.of_tu htu, (congrArg Link.inbox hlink).trans hend.inbox, (congrArg TxnUnit.asks htu).trans hend.asks, hmem,
      hholder, hport, hsweep, recordOutcome_pool kind, hbank, sameRecord_of_fixed (by simp [d, v])⟩

/-- A slot takes a final reply only of the kind its request names (R74). -/
theorem Takes.answers {s : State} {m : Msg} {rest : List Msg} {o : Owner} (h : Takes s m rest o) :
    m.kind.answers (slotAt s m.tag).kind = true := by
  have := h.slot
  simp only [slotTakes, Bool.and_eq_true] at this
  exact this.2

theorem kind_of_answers {k : Kind} :
    (Kind.gatherRsp.answers k = true → k = .gather) ∧ (Kind.foldRsp.answers k = true → k = .fold) ∧
    (Kind.storeRsp.answers k = true → k = .store) := by
  cases k <;> decide

/-- Settles O52: the outcome is recorded by the kind of the slot, and the rest of the station stands. -/
theorem operationRepliesAreRecorded : Obligations.OperationRepliesAreRecorded := by
  refine ⟨fun m rest st op s htakes hop hout hpos hreq => ?waiting, fun m rest st op s htakes hop hacc => ?going,
    fun m rest s htakes => ?sweep⟩
  case waiting =>
    obtain ⟨d, hd, haccs, hcounters, hfinal, -, hblocks⟩ := takes_opOutcome htakes hop
    obtain ⟨hgather, hfold, hstore⟩ := kind_of_answers (k := (slotAt s m.tag).kind)
    intro f recorded
    have hone : op.outstanding - 1 ≠ 0 := by omega
    refine ⟨fun hk hstep => ?_, fun hk hstep => ?_, fun hk hstep => ?_⟩
    · rw [hgather (hk ▸ htakes.answers), hk] at hfinal
      let u := recordOutcome st .gather f (.replied m) d
      have hu : opAt u st = some { op with
          outstanding := op.outstanding - 1
          results := op.results.set f.position (.gathered ((gatheredWords f.count m).map (·.isNone))) } :=
        opAt_recordResult ((opAt_accumulate ..).trans hd) _
      have hstays : opAdvance st u = u := opAdvance_waits hu (.inr (.inl hone))
      have h := hblocks .gather f (.replied m)
      refine ⟨settle u, congrArg Host.Outcome.next (hfinal.trans (congrArg settle hstays)), ⟨opAt_settle hu, h.freed, h.inbox,
        h.asks, h.mem, h.holder, h.port, h.sweep, h.pool, ?_, h.bank, h.record⟩, fun hacc => ?_⟩
      · exact (accumulate_keeps ..).2.2.2.2.2.2.2.1.trans hcounters
      · refine (accAt_accumulate hd (haccs ▸ hacc) _).trans ?_
        simp [hstep, OpStep.accumulates, accAt, haccs]
    · rw [hfold (hk ▸ htakes.answers), hk] at hfinal
      let u := recordOutcome st .fold f (.replied m) d
      have hu : opAt u st = some { op with
          outstanding := op.outstanding - 1
          results := op.results.set f.position (.folded m.foldWord m.bad m.many) } := opAt_recordResult hd _
      have hstays : opAdvance st u = u := opAdvance_waits hu (.inr (.inl hone))
      have h := hblocks .fold f (.replied m)
      exact ⟨settle u, congrArg Host.Outcome.next (hfinal.trans (congrArg settle hstays)), ⟨opAt_settle hu, h.freed, h.inbox,
        h.asks, h.mem, h.holder, h.port, h.sweep, h.pool, hcounters, h.bank, h.record⟩, haccs⟩
    · have hno : ¬ (op.step = .offStore ∧ f.voids = [false]) := fun h => by cases hstep.symm.trans h.1
      rw [hstore (hk ▸ htakes.answers), recordOutcome_stored hd, if_neg hno,
        opAdvance_waits hd (.inr (.inl hone)), hk] at hfinal
      have h := hblocks .store f (.replied m)
      rw [recordOutcome_stored hd, if_neg hno] at h
      exact ⟨settle d, congrArg Host.Outcome.next hfinal, opAt_settle hd, h.freed, h.inbox, h.mem, h.port, hcounters, h.bank,
        h.record⟩
  case going =>
    obtain ⟨d, hd, haccs, hcounters, hfinal, hready, hblocks⟩ := takes_opOutcome htakes hop
    intro x goesOn contributes dropped
    have hgo : ∀ c o op', exec c s = .next (settle (opAdvance st (recordOutcome st x.kind x.f o d))) →
        opAt (recordOutcome st x.kind x.f o d) st = some { op' with outstanding := op.outstanding - 1 } →
        op'.claims = op.claims → goesOn c op' (recordOutcome st x.kind x.f o d) := fun c o op' hexec hop' hclaims => by
      have h := hblocks x.kind x.f o
      exact ⟨hexec, hop', fun hwait => opAdvance_waits hop' (hwait.imp_right (Or.imp (by dsimp only; omega) fun h => hclaims ▸ h)),
        h.freed, h.inbox, h.asks, h.mem, h.holder, h.port, h.sweep, h.pool, h.bank, h.record⟩
    have hsum : ∀ ws, contributes (accumulate st x.f.offset ws d) ws := fun ws => by
      refine (accAt_accumulate (op := { op with outstanding := op.outstanding - 1 }) hd (haccs ▸ hacc) ws).trans ?_
      simp only [accAt, haccs]
    have hgone : ∀ ws, opAt (stopAudit st (memberUnavailable st x.f.position (accumulate st x.f.offset ws d))) st =
        some { dropped with outstanding := op.outstanding - 1 } := fun ws =>
      opAt_memberGone ((opAt_accumulate ..).trans hd)
    refine ⟨fun hx hk => ?_, fun hx hk => ?_, fun hx hk => ?_, fun hx hk => ?_, fun hx hk hstep => ?_, fun hx hk => ?_, fun hx u => ?_⟩
    · rw [hk] at hfinal
      refine ⟨_, hgo _ _ { op with
          results := op.results.set x.f.position (.gathered ((gatheredWords x.f.count m).map (·.isNone))) }
        (congrArg Host.Outcome.next hfinal) ?_ rfl, ?_, ?_⟩ <;> rw [hx]
      · exact opAt_recordResult ((opAt_accumulate ..).trans hd) _
      · exact hsum _
      · exact (accumulate_keeps ..).2.2.2.2.2.2.2.1.trans hcounters
    · rw [hk] at hfinal
      refine ⟨_, hgo _ _ { op with results := op.results.set x.f.position (.folded m.foldWord m.bad m.many) }
        (congrArg Host.Outcome.next hfinal) ?_ rfl, ?_, ?_⟩ <;> rw [hx]
      · exact opAt_recordResult hd _
      · exact haccs
      · exact hcounters
    · rw [hk] at hfinal
      refine ⟨_, hgo _ _ op (congrArg Host.Outcome.next hfinal) ?_ rfl, ?_, ?_⟩ <;> rw [hx, recordOutcome_stored hd]
      · split <;> exact hd
      · split <;> exact haccs
      · split
        · rw [countRecovered, hcounters]
          rfl
        · exact hcounters
    · rw [hk] at hready
      refine ⟨_, hgo _ _ dropped (congrArg Host.Outcome.next hready) ?_ rfl, ?_, ?_⟩ <;> rw [hx]
      · exact hgone _
      · exact hsum _
      · exact (accumulate_keeps ..).2.2.2.2.2.2.2.1.trans hcounters
    · rw [hk] at hready
      refine ⟨_, hgo _ _ dropped (congrArg Host.Outcome.next hready) ?_ rfl, ?_, ?_⟩ <;> rw [hx]
      · exact hgone _
      · exact (congrArg (fun w : State => w.home.accs) (accumulate_idle hd hstep _)).trans haccs
      · exact (accumulate_keeps ..).2.2.2.2.2.2.2.1.trans hcounters
    · rw [hk] at hready
      refine ⟨_, hgo _ _ dropped (congrArg Host.Outcome.next hready) ?_ rfl, ?_, ?_⟩ <;> rw [hx]
      · exact opAt_memberGone hd
      · exact haccs
      · exact hcounters
    · rcases hx with hx | hx | hx <;> rw [hx] <;> rfl
  case sweep =>
    obtain ⟨tu, l, hend, hfinal, hready⟩ := takes_ends htakes
    simp only [handOutcome, htakes.owner] at hfinal hready
    refine ⟨fun hk => ?_, fun hk => ?_⟩
    · rw [hk] at hfinal
      exact ⟨_, congrArg Host.Outcome.next hfinal, hend.freed, rfl, rfl, hend.inbox, rfl, rfl, rfl, rfl, sameRecord_of_fixed rfl⟩
    · rw [hk] at hready
      exact ⟨_, congrArg Host.Outcome.next hready, hend.freed, rfl, rfl, hend.inbox, rfl, rfl, rfl, rfl, sameRecord_of_fixed rfl⟩

end Sys2Proof.Machine
end

section
/-! PROOFS. The decisions of the exclusive operations but the AUDIT's, and their ends (R96, R118 to R122, R130 to R134, R163,
R169). -/

namespace Sys2Proof.Machine

/-! ### O53 -/

section
variable {st : Nat} {op : Op} {s : State}

theorem opAdvance_decides (h : opAt s st = some op) (hc : op.complete = true) : opAdvance st s = opDecide st op s := by
  simp only [opAdvance, h, hc, if_true]

/-- A step begun in a home that differs in the operation alone. -/
theorem beginStep_goesOn {op' : Op} {h : Home} {t : State} {step : OpStep} {asks : List Ask} {claims : List Claim}
    (ht : t = beginStep st step asks claims (s.setHome h)) (hop : opAt (s.setHome h) st = some op') (hc : op'.complete = true)
    (ha : ∀ a ∈ s.tu.asks, a.owner ≠ .op st)
    (haccs : h.accs = s.home.accs) (hpool : h.pool = s.home.pool) :
    opAt t st = some { op' with
      step := step, toAsk := asks.drop 1, outstanding := min asks.length 1, claims := claims.length } ∧
    t.tu.asks = s.tu.asks ++ asks.take 1 ∧ t.bank = { s.bank with homeDue := s.bank.homeDue ++ claims } ∧
    t.home.accs = s.home.accs ∧ t.home.pool = s.home.pool ∧ t.mem = s.mem ∧ t.link = s.link ∧ t.holder = s.holder ∧
    t.port = s.port ∧ t.sweep = s.sweep ∧ t.counters = s.counters ∧ t.causes = s.causes ∧ sameRecord s t := by
  subst ht
  obtain ⟨hnext, htu, hbank, hacc, hplaces⟩ := beginStep_spec step asks claims hop hc ha
  obtain ⟨hmem, hlink, -, hholder, hsweep, hport, hcounters, hcauses⟩ := beginStep_keeps st step asks claims (s.setHome h)
  exact ⟨hnext, congrArg TxnUnit.asks htu, hbank, hacc.trans haccs, hplaces.trans hpool, hmem, hlink, hholder, hport, hsweep,
    hcounters, hcauses, sameRecord_of_fixed (by simp)⟩

end

/-- Settles O53: each kind by the flags of its accumulator. -/
theorem operationsDecideByTheirFlags : Obligations.OperationsDecideByTheirFlags := by
  intro st op s hop hc hstep ha t a o merged bad store parity form goesOn
  have ht : t = opDecide st op s := opAdvance_decides hop hc
  have hmapped : ∀ g : Op → Op, opAt (mapOp st g s) st = some (g op) := fun g => by rw [opAt_mapOp, hop]; rfl
  have hgo : ∀ {ok : Bool} {data : Word} {asks : List Ask} {claims : List Claim} (g : Op → Op),
      t = beginStep st .store asks claims (mapOp st g s) → g op = { op with ok := ok, data := data } →
      goesOn ok data asks claims := fun {ok data _ _} g h hg =>
    beginStep_goesOn (op' := { op with ok := ok, data := data }) h ((hmapped g).trans (congrArg some hg)) hc ha rfl rfl
  have hgo' : ∀ {asks : List Ask} {claims : List Claim}, t = beginStep st .store asks claims s →
      goesOn op.ok op.data asks claims := fun h => beginStep_goesOn (h := s.home) h hop hc ha rfl rfl
  have hdecide : opDecide st op s = match op.kind with
      | .recover => decideRecover st op s
      | .mergeWrite => decideMerge st op s
      | .degradedWrite => decideDegraded st op s
      | .recompute => decideRecompute st op s
      | .rebuild => decideRebuild st op s
      | .audit => s := by
    cases hk : op.kind <;> simp only [opDecide, hstep, hk]
  refine ⟨fun hk hf => ?_, fun hk hf => ?_, fun hk hf => ?_, fun hk hf => ?_, fun hk hf => ?_, fun l hk hl => ?_, fun hk hl => ?_,
    fun hk hf => ?_, fun hk hf => ?_, fun k x hu => ?_⟩
  · rw [hk] at hdecide
    exact hgo _ (ht.trans (hdecide.trans (if_neg (Bool.eq_false_iff.1 hf)))) rfl
  · rcases hk with hk | hk <;> rw [hk] at hdecide
    · exact hgo _ (ht.trans (hdecide.trans (if_pos hf))) rfl
    · exact hgo _ (ht.trans (hdecide.trans (if_pos hf))) rfl
  · rw [hk] at hdecide
    exact hgo _ (ht.trans (hdecide.trans (if_neg (Bool.eq_false_iff.1 hf)))) rfl
  · rw [hk] at hdecide
    have hlanes : (if op.lanes = 0xF#4 then a.word o ^^^ op.data else a.word o ^^^ (op.parityWord 0).data ^^^ merged) =
        if op.lanes == 0xF#4 then a.word o ^^^ op.data else a.word o ^^^ (op.parityWord 0).data ^^^ merged := by
      simp only [beq_iff_eq]
    rw [hlanes]
    exact hgo _ (ht.trans (hdecide.trans (if_neg (Bool.eq_false_iff.1 hf)))) rfl
  · rw [hk] at hdecide
    exact hgo _ (ht.trans (hdecide.trans (if_pos hf))) rfl
  · rw [hk] at hdecide
    refine hgo' (ht.trans (hdecide.trans ?_))
    simp only [decideRecompute, hl]
    rfl
  · rw [hk] at hdecide
    refine hgo' (ht.trans (hdecide.trans ?_))
    simp only [decideRecompute, hl]
    rfl
  · rw [hk] at hdecide
    have hnone : ((List.range s.w).filter (accAt s op.acc).flag).isEmpty = true := by
      simpa [List.filter_eq_nil_iff] using hf
    exact ht.trans (hdecide.trans (if_pos hnone))
  · rw [hk] at hdecide
    have hsome : ¬ ((List.range s.w).filter (accAt s op.acc).flag).isEmpty = true := by
      simpa [List.filter_eq_nil_iff] using hf
    exact hgo' (ht.trans (hdecide.trans (if_neg hsome)))
  · simp [Op.result, List.getD_eq_getElem?_getD, hu, MemberResult.voidAt]

end Sys2Proof.Machine
end

section
/-! PROOFS. The decisions of an AUDIT (R149 to R156). -/

namespace Sys2Proof.Machine

section
variable {st : Nat} {op : Op} {s t : State}

theorem auditEnd_sweep (r : AuditResult) {u : State} (hsweep : u.sweep = s.sweep) (hstraps : u.straps = s.straps) :
    (auditEnd r u).sweep = (auditEnd r s).sweep := by
  have hn : u.n = s.n := congrArg groupSize hstraps
  have hown : u.own = s.own := congrArg ownNo hstraps
  have hstripes : u.stripes = s.stripes := congrArg stripeCount hstraps
  have hnext : nextHomed u = nextHomed s := by simp only [nextHomed, hn, hown, hstripes, hsweep]
  cases r <;> simp [auditEnd, auditAdvance, hnext, hsweep]

theorem auditEnd_home (r : AuditResult) (s : State) : (auditEnd r s).home = s.home := by simp

/-- An AUDIT that ends is absent, its accumulator free, and the sweep unit has its result (R155). -/
theorem closeAudit_ended {r : AuditResult} (h : opAt s st = some op) (hk : op.kind = .audit) (ht : t = closeAudit st r s) :
    (opAt t st = none ∧ accAt t op.acc = {} ∧ t.sweep = (auditEnd r s).sweep ∧ t.tu = s.tu ∧ t.bank = s.bank ∧
      t.mem = s.mem ∧ t.link = s.link ∧ t.port = s.port ∧ t.holder = s.holder ∧ sameRecord s t) ∧
    t.counters = s.counters ∧ t.causes = s.causes := by
  subst ht
  obtain ⟨hnone, hacc, -, hcount⟩ := closeOp_spec h
  obtain ⟨hmem, hlink, htu, -, hholder, hport, hcauses, hbank⟩ := closeAudit_keeps st r s
  have hhome : (closeAudit st r s).home = (closeOp st s).home := auditEnd_home r _
  have hstraps : (closeOp st s).straps = s.straps := straps_of_fixed (by simp)
  have hcounters : (closeAudit st r s).counters = (closeOp st s).counters := (auditEnd_keeps r (closeOp st s)).2.2.2.2.2.2.2.1
  refine ⟨⟨?_, ?_, ?_, htu, hbank, hmem, hlink, hport, hholder, sameRecord_of_fixed (by simp)⟩, ?_, hcauses⟩
  · simpa only [opAt, hhome] using hnone
  · simpa only [accAt, hhome] using hacc
  · exact auditEnd_sweep r (by simp) hstraps
  · rw [hcounters, hcount, if_neg fun h => by simp [hk] at h]

theorem mem_repairSetOf {w o : Nat} : o ∈ repairSetOf w op ↔ o < w ∧ (o ∈ op.parityBad ∨ ∃ r ∈ op.results,
    (∃ x l, r = .folded x l false ∧ o ∈ l) ∨ ∃ v, r = .gathered v ∧ v[o]? = some true) := by
  have hresult : ∀ r : MemberResult, (match r with
      | .folded _ bad many => !many && bad.contains o
      | .gathered v => v.getD o false
      | .awaited | .unavailable => false) = true ↔
      (∃ x l, r = .folded x l false ∧ o ∈ l) ∨ ∃ v, r = .gathered v ∧ v[o]? = some true := by
    intro r
    cases r with
    | folded x l many =>
      cases many with
      | true => simp
      | false =>
        refine ⟨fun h => .inl ⟨x, l, rfl, List.contains_iff_mem.1 h⟩, ?_⟩
        rintro (⟨x', l', he, ho⟩ | ⟨v, he, -⟩)
        · cases he
          exact List.contains_iff_mem.2 ho
        · cases he
    | gathered v => cases hv : v[o]? <;> simp [List.getD_eq_getElem?_getD, hv]
    | awaited => simp
    | unavailable => simp
  have hany : (op.results.any fun r => match r with
      | .folded _ bad many => !many && bad.contains o
      | .gathered v => v.getD o false
      | .awaited | .unavailable => false) = true ↔ ∃ r ∈ op.results,
      (∃ x l, r = .folded x l false ∧ o ∈ l) ∨ ∃ v, r = .gathered v ∧ v[o]? = some true := by
    rw [List.any_eq_true]
    exact exists_congr fun r => and_congr_right fun _ => hresult r
  rw [repairSetOf, List.mem_filter, List.mem_range, inRepairSet, Bool.or_eq_true, List.contains_iff_mem]
  exact and_congr_right fun _ => or_congr_right hany

theorem anyUnavailable_iff : op.anyUnavailable = true ↔ ∃ r ∈ op.results, r = .unavailable := by
  simp [Op.anyUnavailable]

theorem anyBad_iff : (op.results.any (·.foldBad) || !op.parityBad.isEmpty) = true ↔
    (∃ r ∈ op.results, r.foldBad = true) ∨ op.parityBad ≠ [] := by
  simp

end

/-- Settles O54: each step of an AUDIT by the results it has. -/
theorem auditsDecideByFolds : Obligations.AuditsDecideByFolds := by
  intro st op s hop hc hacc hkind ha t o word bad parityGood store parity ended stores clear many gathers fresh works foundBad repairs
    agree
  have ht : t = opDecide st op s := opAdvance_decides hop hc
  obtain ⟨⟨htoAsk, hout⟩, hclaims⟩ : (op.toAsk = [] ∧ op.outstanding = 0) ∧ op.claims = 0 := by simpa [Op.complete] using hc
  have hended : ∀ r, t = closeAudit st r s → ended r ∧ t.counters = s.counters ∧ t.causes = s.causes := fun r h =>
    closeAudit_ended hop hkind h
  have hworks : ∀ l, t = auditOffset st l s → works l := by
    intro l h
    cases l with
    | nil =>
      obtain ⟨hend, hcounters, hcauses⟩ := hended .repaired h
      exact ⟨hcounters, hcauses, fun _ => hend, fun o ho => by cases ho⟩
    | cons x l =>
      obtain ⟨hnext, hasks, haccs, hbank, hsweep, hcounters⟩ := auditOffset_cons_spec x l hop hc ha hacc
      obtain ⟨hmem, hlink, -, -, -, hcauses⟩ := auditOffset_keeps st (x :: l) s
      have hfixed : (auditOffset st (x :: l) s).fixed = s.fixed := by simp
      rw [← h] at hnext hasks haccs hbank hsweep hcounters hmem hlink hcauses hfixed
      refine ⟨hcounters, hcauses, fun hl => (List.cons_ne_nil _ _ hl).elim, fun o ho => ?_⟩
      obtain rfl : x = o := Option.some.inj ho
      exact ⟨hnext, hasks, haccs, hbank, hsweep, hmem, hlink, sameRecord_of_fixed hfixed⟩
  have hrepairs : t = auditOffset st (repairSetOf s.w op) s → repairs := fun h =>
    ⟨repairSetOf s.w op, List.pairwise_lt_range.filter _, fun o => mem_repairSetOf, hworks _ h⟩
  have hstores : ∀ {u : State} {asks : List Ask} {claims : List Claim} (c : Causes), u = s.setCauses c →
      t = beginStep st .offStore asks claims u → stores asks claims ∧ t.causes = c := fun {u asks claims} c hu h => by
    subst hu
    obtain ⟨hnext, hasks, hbank, -, -, hmem, hlink, -, -, hsweep, hcounters, hcauses, hrecord⟩ :=
      beginStep_goesOn (s := s.setCauses c) (h := s.home) h hop hc ha rfl rfl
    exact ⟨⟨hnext, hasks, hbank, hsweep, hcounters, hmem, hlink, hrecord⟩, hcauses⟩
  have hnoClaims : ∀ u : State, t.bank = { u.bank with homeDue := u.bank.homeDue ++ [] } → t.bank = u.bank := fun u h => by
    rw [h, List.append_nil]
  have hwhole : (∀ r ∈ op.results, r ≠ .unavailable ∧ r.foldBad = false) → ¬ op.anyUnavailable = true := fun h hgone =>
    (anyUnavailable_iff.1 hgone).elim fun r hr => (h r hr.1).1 hr.2
  have hgood : clear → ¬ (op.results.any (·.foldBad) || !op.parityBad.isEmpty) = true := fun h hbad =>
    (anyBad_iff.1 hbad).elim (fun ⟨r, hr, hb⟩ => by simp [(h.1 r hr).2] at hb) fun hp => hp h.2
  refine ⟨fun hst hgone => ?_, fun hst hclear hagree => ?_, fun hst hclear hagree => ?_, fun hst hall hbad => ⟨fun hmany => ?_,
    fun hmany => ?_⟩, fun hst => ?_, fun hst hbad hpar => ?_, fun k hst hbad hpar => ?_, fun hst hbad hpar => ?_,
    fun hst hbad => ?_, fun hst => ?_, fun hst => ?_, fun hst => ?_, fun hst => ?_⟩
  · have hd : opDecide st op s = decideFold st op s := by simp only [opDecide, hst]
    exact hended .noResult (ht.trans (hd.trans (if_pos (anyUnavailable_iff.2 hgone))))
  · have hd : opDecide st op s = decideFold st op s := by simp only [opDecide, hst]
    refine hended .clean (ht.trans (hd.trans ?_))
    rw [decideFold, if_neg (hwhole hclear.1), if_neg (hgood hclear), if_pos (beq_iff_eq.2 hagree)]
  · let u : State := mapAcc op.acc (fun _ => freshAccum s.w) s
    have hd : opDecide st op s = beginStep st .syncGather (gathers 0 s.w (List.range s.d)) []
        (mapOp st (fun op => { op with results := List.replicate s.d .awaited }) u) := by
      simp only [opDecide, hst]
      rw [decideFold, if_neg (hwhole hclear.1), if_neg (hgood hclear), if_neg fun h => hagree (beq_iff_eq.1 h)]
      rfl
    have hop' : opAt (mapOp st (fun op => { op with results := List.replicate s.d .awaited }) u) st =
        some { op with results := List.replicate s.d .awaited } := by
      rw [opAt_mapOp, opAt_mapAcc, hop]
      rfl
    obtain ⟨hnext, hasks, hbank, haccs, -, -, -, -, -, hsweep, hcounters, hcauses, hrecord⟩ :=
      beginStep_goesOn (s := u) (ht.trans hd) hop' hc ha rfl rfl
    have hlen : (gathers 0 s.w (List.range s.d)).length = s.d := by simp [gathers]
    have hzero : ([] : List Claim).length = op.claims := hclaims.symm
    rw [hlen, hzero] at hnext
    refine ⟨hnext, hasks, ?_, hnoClaims u hbank, hsweep, hcounters, hcauses, hrecord⟩
    have hfresh : accAt t op.acc = accAt u op.acc := congrArg (fun l : List Accum => l.getD op.acc {}) haccs
    exact hfresh.trans (accAt_mapAcc _ hacc)
  · have hd : opDecide st op s = decideFold st op s := by simp only [opDecide, hst]
    have hnone : ((positions s).filter fun k => (op.result k).foldMany).isEmpty = true := List.isEmpty_iff.2 hmany
    rw [decideFold, if_neg (fun h => (anyUnavailable_iff.1 h).elim fun r hr => hall r hr.1 hr.2), if_pos (anyBad_iff.2 hbad),
      if_pos hnone] at hd
    exact hrepairs (ht.trans hd)
  · have hd : opDecide st op s = decideFold st op s := by simp only [opDecide, hst]
    have hsome : ¬ ((positions s).filter fun k => (op.result k).foldMany).isEmpty = true := fun h =>
      hmany (List.isEmpty_iff.1 h)
    rw [decideFold, if_neg (fun h => (anyUnavailable_iff.1 h).elim fun r hr => hall r hr.1 hr.2), if_pos (anyBad_iff.2 hbad),
      if_neg hsome] at hd
    obtain ⟨hnext, hasks, hbank, haccs, -, -, -, -, -, hsweep, hcounters, hcauses, hrecord⟩ :=
      beginStep_goesOn (h := s.home) (ht.trans hd) hop hc ha rfl rfl
    refine ⟨hnext.trans ?_, hasks, haccs, hnoClaims s hbank, hsweep, hcounters, hcauses, hrecord⟩
    have hone : min ((gathers 0 s.w many).length) 1 = 1 := by
      have : 0 < many.length := List.length_pos_iff.2 hmany
      simp only [gathers, List.length_map]
      omega
    have hone' : min (((positions s).filter fun k => (op.result k).foldMany).map (gatherAsk s.n st 0 s.w)).length 1 = 1 := hone
    rw [hone', hclaims]
    rfl
  · exact hrepairs (ht.trans (by simp only [opDecide, hst]))
  · have hb : badPositions s op 0 = [] := hbad
    have hp : (!isGood (op.parityWord 0)) = false := by rw [hpar]; rfl
    exact hworks _ (ht.trans (by simp only [opDecide, hst, decideOffset, hb, hp]))
  · have hb : badPositions s op 0 = [k] := hbad
    have hp : (!isGood (op.parityWord 0)) = false := by rw [hpar]; rfl
    exact hstores s.causes rfl (ht.trans (by simp only [opDecide, hst, decideOffset, hb, hp] <;> rfl))
  · have hb : badPositions s op 0 = [] := hbad
    have hp : (!isGood (op.parityWord 0)) = true := by rw [Bool.eq_false_iff.2 hpar]; rfl
    exact hstores s.causes rfl (ht.trans (by simp only [opDecide, hst, decideOffset, hb, hp] <;> rfl))
  · refine hstores { s.causes with audit := true } rfl (ht.trans ?_)
    change opDecide st op s = beginStep st .offStore ((badPositions s op 0).map _) _ _
    change 2 ≤ (badPositions s op 0).length ∨ ((badPositions s op 0).length = 1 ∧ ¬ isGood (op.parityWord 0) = true) at hbad
    simp only [opDecide, hst, decideOffset]
    split
    next hb hp => simp [hb] at hbad
    next k hb hp =>
      have hpar : isGood (op.parityWord 0) = true := by simpa using hp
      simp [hb, hpar] at hbad
    next hb hp => simp [hb] at hbad
    next => rfl
  · exact hworks _ (ht.trans (by simp only [opDecide, hst]))
  · have hd : opDecide st op s =
        beginStep st .syncWrite [] [parityUnitWrite s st ((List.range s.w).map (accForm (accAt s op.acc)))] s := by
      simp only [opDecide, hst]
    have hu := ht.trans hd
    obtain ⟨hnext, htu, hbank, haccs, -⟩ := beginStep_spec .syncWrite []
      [parityUnitWrite s st ((List.range s.w).map (accForm (accAt s op.acc)))] hop hc ha
    rw [← hu] at hnext htu hbank haccs
    obtain ⟨-, -, -, -, -, -, -, -, -, hsweep, hcounters, hcauses, hrecord⟩ := beginStep_goesOn (h := s.home) hu hop hc ha rfl rfl
    refine ⟨hnext.trans ?_, htu.trans ?_, hbank, haccs, hsweep, hcounters, hcauses, hrecord⟩
    · simp [htoAsk, hout]
    · simp
  · obtain ⟨hend, hcounters, hcauses⟩ := closeAudit_ended (s := causeAudit (countResync s)) (r := .resync) hop hkind
      (ht.trans (by simp only [opDecide, hst]))
    exact ⟨hend, hcounters, hcauses⟩
  · exact hended .noResult (ht.trans (by simp only [opDecide, hst]))

end Sys2Proof.Machine
end

section
/-! PROOFS. An exclusive operation ends with its reply, its answers, its count and its accumulator freed (R36, R75, R79, R93, R96,
R98, R116, R139, R163, R170). -/

namespace Sys2Proof.Machine

/-! ### The close of an operation, and what follows it in the rebuild -/

section
variable {st : Nat} {op : Op} {s t : State}

/-- The operation closed, as a change of the home and the counters. -/
theorem closeOp_eq (h : opAt s st = some op) :
    ∃ home counters, closeOp st s = (s.setHome home).setCounters counters ∧ opAt (s.setHome home) st = none ∧
      accAt (s.setHome home) op.acc = {} ∧ home.pool = s.home.pool ∧
      counters = if (op.kind = .recover ∨ op.kind = .mergeWrite) ∧ op.ok = true then
        { s.counters with recovered := min (s.counters.recovered + 1) 65535 } else s.counters := by
  have heq : closeOp st s = (s.setHome (closeOp st s).home).setCounters (closeOp st s).counters := by
    simp only [closeOp, h]
    split <;> rfl
  obtain ⟨hnone, hacc, hpool, hcount⟩ := closeOp_spec h
  exact ⟨_, _, heq, hnone, hacc, hpool, hcount⟩

/-- A stripe's entry made for new work has no operation (R83). -/
theorem opAt_takePlace (st : Nat) (p : Place) (s : State) : opAt (takePlace p s) st = opAt s st := by
  have hentry : (s.home.ensure p.stripe).entry st = if s.home.hasEntry p.stripe then s.home.entry st else
      (s.home.entry st).or (if p.stripe = st then some { stripe := p.stripe } else none) := by
    unfold Home.ensure
    split
    · rfl
    · simp only [Home.entry, List.find?_append, List.find?_cons, List.find?_nil]
      by_cases hst : p.stripe = st
      · simp [hst]
      · simp [hst, beq_eq_false_iff_ne.2 hst]
  change ((s.home.ensure p.stripe).entry st).bind (·.op) = (s.home.entry st).bind (·.op)
  rw [hentry]
  split
  · rfl
  · cases s.home.entry st with
    | some e => rfl
    | none =>
      split <;> rfl

theorem opAt_beginStripe (st p : Nat) (s : State) : opAt (beginStripe p s) st = opAt s st := by
  unfold beginStripe offerRecompute
  split
  · split
    · exact opAt_takePlace st _ s
    · rfl
  · rfl

theorem accAt_beginStripe (i p : Nat) (s : State) : accAt (beginStripe p s) i = accAt s i := by
  have hens : ∀ q, (s.home.ensure q).accs = s.home.accs := fun q => by
    unfold Home.ensure
    split <;> rfl
  unfold beginStripe offerRecompute
  split
  · split
    · exact congrArg (fun l : List Accum => l.getD i {}) (hens _)
    · rfl
  · rfl

/-- The pointer advances, and no operation and no accumulator moves (R158, R161, R172). -/
theorem rebuildAdvance_spec (st i : Nat) (s : State) :
    (rebuildAdvance s).sweep.rebuildPtr = s.sweep.rebuildPtr + 1 ∧ opAt (rebuildAdvance s) st = opAt s st ∧
      accAt (rebuildAdvance s) i = accAt s i := by
  let u : State := s.setSweep { s.sweep with rebuildPtr := s.sweep.rebuildPtr + 1 }
  have hadvance : rebuildAdvance s = if s.stripes ≤ s.sweep.rebuildPtr + 1 then rebuildComplete u else
      beginStripe (s.sweep.rebuildPtr + 1) u := rfl
  rw [hadvance]
  split
  · have hhome : (rebuildComplete u).home = s.home := by simp [u]
    refine ⟨?_, by simp only [opAt, hhome], by simp only [accAt, hhome]⟩
    have hsweep : (queueNotice (stateNotice .active) (setOwnState .active u)).sweep = u.sweep := by simp
    exact congrArg (·.rebuildPtr) hsweep
  · exact ⟨(beginStripe_sweep _ u).1, opAt_beginStripe st _ u, accAt_beginStripe i _ u⟩

/-- The reply of an operation on one word (R118 to R122, R130, R131). -/
theorem opReplyMsg_oneWord (acc : Accum) (h : op.kind = .recover ∨ op.kind = .mergeWrite ∨ op.kind = .degradedWrite) :
    opReplyMsg op acc = {
      kind := if op.kind = .recover then .recoverRsp else .writeRsp
      status := if op.ok then .ok else .lost
      f := { payload := if op.kind = .recover ∧ op.ok = true then [op.data] else [] } } := by
  rcases h with h | h | h <;> cases hok : op.ok <;> simp [opReplyMsg, h, hok]

theorem opAdvance_replies (h : opAt s st = some op) (hc : op.complete = true) (hstep : op.step = .store) :
    opAdvance st s = replyOp st s := by
  rw [opAdvance_decides h hc]
  simp only [opDecide, hstep]

end

/-! ### The answers of a listed RECOMPUTE (R93, R116) -/

/-- WRITE_RSPs told one after another to available peers, with places enough, are queued in their order. -/
theorem foldl_tellRequester {op : Op} : ∀ (l : List Place) (s : State), s.link.waiters = [] →
    l.length ≤ freePlaces s →
    (∀ p ∈ l, ∃ src tag seq, p.who = .peer src tag seq ∧ (viewAt s src).state.available = true) →
    ∃ filter sent, l.foldl (fun s p => tellRequester p.who { kind := .writeRsp, status := answerStatus s.w op p } s) s =
        (s.setFilter filter).setLink { s.link with replies := { s.link.replies with q := s.link.replies.q ++ sent } } ∧
      sent.length = l.length ∧
      ∀ (i : Nat) (p : Place), l[i]? = some p → ∃ src tag seq, p.who = .peer src tag seq ∧
        sent[i]? = some (replyTo s src tag seq { kind := .writeRsp, status := answerStatus s.w op p })
  | [], s, _, _, _ => ⟨s.filter, [], by rw [List.append_nil]; rfl, rfl, fun i p h => by simp at h⟩
  | x :: l, s, hwait, hroom, hpeers => by
    obtain ⟨src, tag, seq, hwho, hv⟩ := hpeers x (List.mem_cons_self ..)
    have hcan : CanReply s src := ⟨hv, hwait, Nat.lt_of_lt_of_le (Nat.succ_pos _) hroom⟩
    let m : Msg := { kind := .writeRsp, status := answerStatus s.w op x }
    let u : State := (s.setFilter (filterDone { m with dest := .station src, tag := tag, seq := seq } s).filter).setLink
      { s.link with replies := { s.link.replies with q := s.link.replies.q ++ [replyTo s src tag seq m] } }
    have htold : tellRequester x.who m s = u := by
      rw [hwho]
      refine (emitReply_canReply hcan m).trans ?_
      rw [filterDone_eq]
    have hplaces : freePlaces u = freePlaces s - 1 := by
      simp only [freePlaces_eq, placesInUse, u, State.setLink_link, List.length_append, List.length_cons, List.length_nil,
        State.setLink_holder, State.setFilter_holder]
      omega
    obtain ⟨filter, sent, hfold, hlen, hsent⟩ := foldl_tellRequester l u hwait
      (by rw [hplaces]; simp only [List.length_cons] at hroom; omega) fun p hp => hpeers p (List.mem_cons_of_mem _ hp)
    refine ⟨filter, replyTo s src tag seq m :: sent, ?_, by simp [hlen], fun i p hp => ?_⟩
    · rw [List.foldl_cons]
      refine (congrArg (fun v => l.foldl _ v) htold).trans (hfold.trans ?_)
      exact congrArg (fun q => (s.setFilter filter).setLink { s.link with replies := { s.link.replies with q := q } })
        (List.append_assoc s.link.replies.q [replyTo s src tag seq m] sent)
    · cases i with
      | zero =>
        obtain rfl : x = p := by simpa using hp
        exact ⟨src, tag, seq, hwho, rfl⟩
      | succ i =>
        obtain ⟨src', tag', seq', hwho', hmsg⟩ := hsent i p (by simpa using hp)
        exact ⟨src', tag', seq', hwho', List.getElem?_cons_succ.trans hmsg⟩

theorem answerStatus_ok {w : Nat} {op : Op} {p : Place} {v : List Bool}
    (hres : op.results[p.position]? = some (.gathered v)) (hgood : v[p.offset - (op.list.range w).1]? = some false) :
    answerStatus w op p = .ok := by
  simp [answerStatus, Op.result, List.getD_eq_getElem?_getD, hres, hgood]

theorem answerStatus_lost {w : Nat} {op : Op} {p : Place} (h : ¬ ∃ v, op.results[p.position]? = some (.gathered v) ∧
    v[p.offset - (op.list.range w).1]? = some false) : answerStatus w op p = .lost := by
  unfold answerStatus Op.result
  rw [List.getD_eq_getElem?_getD]
  cases hr : op.results[p.position]? with
  | none => rfl
  | some r =>
    cases r with
    | gathered v =>
      cases hv : v[p.offset - (op.list.range w).1]? with
      | none => simp [List.getD_eq_getElem?_getD, hv]
      | some b =>
        cases b with
        | true => simp [List.getD_eq_getElem?_getD, hv]
        | false => exact absurd ⟨v, hr, hv⟩ h
    | awaited => rfl
    | folded x l many => rfl
    | unavailable => rfl

/-! ### O55 -/

section
variable {st src tag : Nat} {seq : Bool} {op : Op} {s : State}

theorem replyOp_refused (hop : opAt s st = some op) (hwho : op.who = .peer src tag seq)
    (hv : (viewAt s src).state.available = false) (hk : (opReplyMsg op (accAt s op.acc)).kind ≠ .helloRsp) :
    replyOp st s =
      closeOp st (filterDone { opReplyMsg op (accAt s op.acc) with dest := .station src, tag := tag, seq := seq } s) := by
  have hdrop : replyDropped s { opReplyMsg op (accAt s op.acc) with dest := .station src, tag := tag, seq := seq } = true :=
    replyDropped_of_unavailable rfl hk hv
  simp only [replyOp, hop, hwho, hdrop, if_true]

theorem replyOp_queued (hop : opAt s st = some op) (hwho : op.who = .peer src tag seq) (hcan : CanReply s src) :
    let m := { opReplyMsg op (accAt s op.acc) with dest := .station src, tag := tag, seq := seq }
    replyOp st s = if op.kind = .rebuild then
        pushReply { msg := m, op := some st } (filterDone m (mapOp st (fun op => { op with step := .reply }) s))
      else pushReply { msg := m } (filterDone m (closeOp st s)) := by
  have hdrop : replyDropped s { opReplyMsg op (accAt s op.acc) with dest := .station src, tag := tag, seq := seq } = false :=
    replyDropped_of_available rfl hcan.admitted
  have hroom : (s.link.waiters.isEmpty && decide (0 < freePlaces s)) = true := by simp [hcan.noWaiter, hcan.room]
  simp only [replyOp, hop, hwho, hdrop, hroom, Bool.false_eq_true, if_false, if_true, beq_iff_eq]

end

/-- Settles O55, by who asked for the operation. -/
theorem operationsEndWithTheirReply : Obligations.OperationsEndWithTheirReply := by
  intro st op s hop hc hstep t recovered closed oneWord
  have ht : t = replyOp st s := opAdvance_replies hop hc hstep
  clear_value t
  obtain ⟨home, counters, hclose, hnone, hacc, hpool, hcount⟩ := closeOp_eq hop
  have hrecovered : ∀ c : Counters, (c = if (op.kind = .recover ∨ op.kind = .mergeWrite) ∧ op.ok = true then
      { s.counters with recovered := min (s.counters.recovered + 1) 65535 } else s.counters) → oneWord → c = recovered := by
    intro c hcount h
    rw [hcount]
    rcases h with h | h | h <;> simp [recovered, h]
  have hplain : op.kind = .recompute → counters = s.counters := fun h => by
    rw [hcount, if_neg fun h' => by simp [h] at h']
  refine ⟨ht, fun src tag seq hwho hone => ?onPeer, fun hwho hk => ?onRebuild, fun src tag seq hwho hk hcan => ?onUnit,
    fun n addr e hwho hone hn hf ho he => ?onOwn, fun hwho => ?onNobody, fun hwho hk hwait => ?onList⟩
  case onPeer =>
    intro kind status payload hview
    have hmsg := opReplyMsg_oneWord (accAt s op.acc) hone
    let m : Msg := { kind := kind, status := status, f := { payload := payload } }
    have hfinal : m.kind.isFinal = true := by
      change Kind.isFinal (if _ then _ else _) = true
      split <;> rfl
    have hcache : cacheOf m = some { kind := kind, status := status, word := payload.head? } := by
      by_cases hk : op.kind = .recover <;> simp only [cacheOf, m, kind, hk, if_true, if_false]
    have hdone : ∀ u : State, filterDone { m with dest := .station src, tag := tag, seq := seq } u =
        u.setFilter (doneWith u src tag seq (some { kind := kind, status := status, word := payload.head? })) := fun u => by
      rw [← hcache]
      exact filterDone_final hfinal rfl
    rcases hview with hv | hcan
    · have hne : (opReplyMsg op (accAt s op.acc)).kind ≠ .helloRsp := by
        rw [hmsg]
        change (if _ then _ else _) ≠ Kind.helloRsp
        split <;> decide
      have hr := replyOp_refused hop hwho hv hne
      rw [hmsg] at hr
      obtain ⟨home', counters', hclose', hnone', hacc', hpool', hcount'⟩ := closeOp_eq
        (s := s.setFilter (doneWith s src tag seq (some { kind := kind, status := status, word := payload.head? }))) hop
      rw [hr.trans ((congrArg (closeOp st) (hdone s)).trans hclose')] at ht
      subst ht
      refine ⟨⟨hnone', hacc', rfl, rfl, rfl, sameRecord_of_fixed rfl⟩, fun _ => rfl, fun h => ?_, rfl, hrecovered _ hcount' hone,
        hpool', rfl, rfl, rfl, rfl⟩
      exact absurd (hv.symm.trans h.admitted) Bool.false_ne_true
    · have hr := (replyOp_queued hop hwho hcan).trans (if_neg fun hk => by rcases hone with h | h | h <;> cases h.symm.trans hk)
      rw [hmsg, hclose] at hr
      have hpush := (congrArg (pushReply { msg := { m with dest := .station src, tag := tag, seq := seq } })
        (hdone ((s.setHome home).setCounters counters))).trans (pushReply_replyTo _ src tag seq m)
      rw [hr.trans hpush] at ht
      subst ht
      refine ⟨⟨hnone, hacc, rfl, rfl, rfl, sameRecord_of_fixed rfl⟩, fun h => ?_, fun _ => rfl, rfl, hrecovered _ hcount hone,
        hpool, rfl, rfl, rfl, rfl⟩
      exact absurd (h.symm.trans hcan.admitted) Bool.false_ne_true
  case onRebuild =>
    have hr : replyOp st s = rebuildAdvance (closeOp st s) := by simp only [replyOp, hop, hwho]
    rw [hr, hclose] at ht
    obtain ⟨hptr, hno, hacc'⟩ := rebuildAdvance_spec st op.acc ((s.setHome home).setCounters counters)
    obtain ⟨-, -, -, hcounters, hbank⟩ := rebuildAdvance_keeps ((s.setHome home).setCounters counters)
    subst ht
    exact ⟨hno.trans hnone, hacc'.trans hacc, hptr, hcounters.trans (hplain hk), hbank, sameRecord_of_fixed (by simp)⟩
  case onUnit =>
    have hr := (replyOp_queued hop hwho hcan).trans (if_pos hk)
    have hkind : (opReplyMsg op (accAt s op.acc)) = { kind := .rebuildRsp, f := {
        payload := List.zipWith (fun w v => if v then 0 else w) (accAt s op.acc).words (accAt s op.acc).flags
        voids := (accAt s op.acc).flags } } := by simp only [opReplyMsg, hk]
    rw [hr, hkind, filterDone_final (src := src) rfl rfl] at ht
    have hop' : opAt (mapOp st (fun op => { op with step := .reply }) s) st = some { op with step := .reply } := by
      rw [opAt_mapOp, hop]
      rfl
    subst ht
    exact ⟨hop', rfl, rfl, rfl, rfl, rfl, rfl, rfl, rfl, sameRecord_of_fixed rfl⟩
  case onOwn =>
    let m : Msg := opReplyMsg op (accAt s op.acc)
    have hmsg : m = _ := opReplyMsg_oneWord (accAt s op.acc) hone
    have hr : replyOp st s = ownReply n m (closeOp st s) := by simp only [replyOp, hop, hwho, m]
    have hfinal : m.kind.isFinal = true := by
      rw [hmsg]
      change Kind.isFinal (if _ then _ else _) = true
      split <;> rfl
    let v : State := (s.setHome home).setCounters counters
    have hown : t = portOutcome addr (.replied m) (endSlot n v) := by
      rw [ht, hr, hclose]
      exact ownReply_final (s := v) hf ho hfinal
    have he' : startedEntry (endSlot n v) addr = some e := by simpa [startedEntry, v] using he
    have haddr : e.addr = addr := startedEntry_addr he
    obtain ⟨hmem, hlink, hfilter, hholder, hhome, hsweep, hbank⟩ := portOutcome_keeps addr (.replied m) (endSlot n v)
    obtain ⟨kmem, kfilter, kholder, khome, ksweep, kport, kcounters, kcauses, kbank⟩ := endSlot_keeps n v
    have hslot : SlotFreed (portOutcome addr (.replied m) (endSlot n v)) n := by
      have hend : SlotFreed (endSlot n v) n := slotFreed_endSlot hn
      simpa only [SlotFreed, slotAt, portOutcome_slots] using hend
    have hhome' := hhome.trans khome
    refine ⟨⟨?_, ?_, ?_, ?_, ?_, ?_⟩, ?_, ?_, ?_, ?_, ?_, fun hk hw => ?_, fun hk hw hok => ?_, fun hk hw hph hok => ?_⟩
    · rw [hown, opAt, hhome']
      exact hnone
    · rw [hown, accAt, hhome']
      exact hacc
    · rw [hown, hmem, kmem]
      rfl
    · rw [hown, hholder, kholder]
      rfl
    · rw [hown, hbank, kbank]
      rfl
    · rw [hown]
      exact sameRecord_of_fixed (by simp [v])
    · rw [hown]
      exact hslot
    · rw [hown, hlink]
      exact (withdrawCopy_link n _).1
    · rw [hown, hfilter, kfilter]
      rfl
    · rw [hown, hhome']
      exact hpool
    · rw [hown, hsweep, ksweep]
      rfl
    · have hsame : SameForRequesters s v := ⟨rfl, rfl, rfl, rfl, rfl, rfl, rfl, rfl, rfl, fun _ _ _ => rfl⟩
      have hm : m = { kind := .writeRsp, status := if op.ok then .ok else .lost } := by simp [hmsg, hk]
      have ht' : t = tellRequester op.who { kind := .writeRsp, status := if op.ok then .ok else .lost } v := by
        rw [ht, hr, hclose, hm, hwho]
        rfl
      rw [ht', ← hrecovered counters hcount hone]
      exact (tellRequester_write op.who v).of_same hsame
    · rw [hown, portOutcome_read he' hw, readOutcome_ok (w := op.data) (by simp [hmsg, hok]) (by simp [hmsg, hk, hok]), finishRead_eq]
      refine ⟨?_, kcounters.trans (hrecovered counters hcount hone)⟩
      change ({ entryLeft (endSlot n v) e.addr with ack := true, ldo := maskLanes e.lanes op.data, lerr := false } : Port) = _
      rw [entryLeft, kport]
      rfl
    · rw [hown, portOutcome_read he' hw, readOutcome_lost (by simp [hmsg, hok]) hph, finishReadLost_eq]
      have hplain' : (endSlot n v).counters = s.counters := by
        rw [kcounters]
        exact hcount.trans (if_neg fun h => by simp [hok] at h)
      refine ⟨?_, ?_⟩
      · change ({ entryLeft (endSlot n v) e.addr with ack := true, ldo := 0, lerr := true } : Port) = _
        rw [entryLeft, kport]
        rfl
      · change ({ (endSlot n v).counters with lost := min ((endSlot n v).counters.lost + 1) 65535 } : Counters) = _
        rw [hplain']
  case onNobody =>
    have hr : replyOp st s = closeOp st s := by simp only [replyOp, hop, hwho]
    rw [hr, hclose] at ht
    subst ht
    exact ⟨⟨hnone, hacc, rfl, rfl, rfl, sameRecord_of_fixed rfl⟩, rfl, rfl, rfl, rfl⟩
  case onList =>
    intro due hroom hpeers good
    let left : Home := { s.home with pool := s.home.pool.filter fun p => !(p.stripe == st && p.use == .answer) }
    have hdue : (s.home.places st).filter (fun p => p.use == .answer) = due := by
      simp only [Home.places, List.filter_filter, due, Bool.and_comm]
    obtain ⟨filter, sent, hfold, hlen, hsent⟩ := foldl_tellRequester (op := op) due (s.setHome left) hwait
      hroom hpeers
    let w : State := ((s.setHome left).setFilter filter).setLink
      { s.link with replies := { s.link.replies with q := s.link.replies.q ++ sent } }
    have hsends : sendAnswers st op s = w := by
      simp only [sendAnswers, hdue]
      exact hfold
    have hopw : opAt w st = some op := hop
    obtain ⟨home', counters', hclose', hnone', hacc', hpool', hcount'⟩ := closeOp_eq hopw
    have hr : replyOp st s = closeOp st (sendAnswers st op s) := by simp only [replyOp, hop, hwho]
    rw [hr, hsends, hclose'] at ht
    subst ht
    refine ⟨⟨hnone', hacc', rfl, rfl, rfl, sameRecord_of_fixed rfl⟩, hpool', ⟨sent, rfl, hlen, fun i p hp => ?_⟩,
      hcount'.trans (if_neg fun h => by simp [hk] at h), rfl, rfl, rfl⟩
    obtain ⟨src, tag, seq, hpeer, hmsg⟩ := hsent i p hp
    exact ⟨src, tag, seq, _, hpeer, hmsg, fun ⟨v, hres, hgood⟩ => answerStatus_ok hres hgood, fun h => answerStatus_lost h⟩

end Sys2Proof.Machine
end

section
/-! PROOFS. The bank port: claims granted, claims completed, and the pointers that completed bursts advance (R15 to R20, R57, R108,
R135, R136, R158, R161, R166, R172). -/

namespace Sys2Proof.Machine

theorem exec_completion {s : State} {b : BusyClaim} (hbusy : s.bank.busy = some b) (hin : claimInBank s.straps b.claim = true) :
    exec .bankClaimCompletion s =
      .next (settle (claimDone b.claim.work (claimReads s.bank.words b.claim) (runClaim b.claim s))) := by
  change execBankClaimCompletion s = _
  simp only [execBankClaimCompletion, hbusy, hin, Bool.not_true, Bool.false_eq_true, if_false]

/-! ### O58 -/

section
variable {s : State}

theorem fillAdvance_next (h : s.mem.fillProgress + 1 < s.stripes) :
    fillAdvance s = fillClaim (s.mem.fillProgress + 1)
      (s.setMem { s.mem with fillProgress := s.mem.fillProgress + 1 }) := if_neg (Nat.not_le.2 h)

theorem fillAdvance_last (h : s.stripes ≤ s.mem.fillProgress + 1) :
    fillAdvance s = goActive (s.setMem { s.mem with fillProgress := s.mem.fillProgress + 1 }) := if_pos h

theorem rebuildAdvance_next (h : s.sweep.rebuildPtr + 1 < s.stripes) :
    rebuildAdvance s = beginStripe (s.sweep.rebuildPtr + 1)
      (s.setSweep { s.sweep with rebuildPtr := s.sweep.rebuildPtr + 1 }) := if_neg (Nat.not_le.2 h)

theorem rebuildAdvance_last (h : s.stripes ≤ s.sweep.rebuildPtr + 1) :
    rebuildAdvance s = rebuildComplete (s.setSweep { s.sweep with rebuildPtr := s.sweep.rebuildPtr + 1 }) := if_pos h

/-- The station goes ACTIVE: its state, STATE(ACTIVE), and the audit timer (R43, R144). -/
theorem goActive_spec (s : State) :
    (goActive s).mem = { s.mem with
      ownState := .active
      views := s.mem.views.set s.own { state := .active, inc := s.mem.ownInc, mode := s.mem.joinMode } } ∧
    (goActive s).sweep = { s.sweep with auditTimer := apDecode s.straps.ap } ∧
    ∃ q ∈ (goActive s).link.notices.q, q.msg.kind = .state ∧ q.msg.nState = .active := by
  let u : State := setOwnState .active s
  have hsweep : (queueNotice (stateNotice .active) u).sweep = s.sweep := by simp [u]
  have hstraps : (queueNotice (stateNotice .active) u).straps = s.straps := straps_of_fixed (by simp [u])
  have hmem : (queueNotice (stateNotice .active) u).mem = u.mem := by simp
  refine ⟨hmem.trans (setOwnState_mem .active s), ?_, mem_stateNotice .active u⟩
  change ({ (queueNotice (stateNotice .active) u).sweep with
    auditTimer := apDecode (queueNotice (stateNotice .active) u).straps.ap } : Sweep) = _
  rw [hsweep, hstraps]

theorem beginStripe_asked {st : Nat} (h : homeOf s.n st ≠ s.own) : beginStripe st s = askRebuild st s := by
  simp [beginStripe, homesStripe, h]

theorem beginStripe_homed {st : Nat} (h : homeOf s.n st = s.own) :
    (beginStripe st s).sweep.rebuildStep = if roomFor s st then .recomputing else .waitingRoom := by
  have hhomes : homesStripe s st = true := by simp [homesStripe, h]
  simp only [beginStripe, hhomes, if_true, offerRecompute]
  split <;> rfl

end

/-- Settles O58, each burst by whether its stripe was the last. -/
theorem pointersAdvanceByStripe : Obligations.PointersAdvanceByStripe := by
  refine ⟨fun b ws s hbusy hwork hop hin => ?fill, fun b ws s hbusy hwork hop hin => ?store⟩
  all_goals
    have hrun := exec_completion hbusy hin
    have hwords : (runClaim b.claim s).bank.words = bankSetAll s.bank.words (numbered b.claim.first ws) := by
      simp [(runClaim_spec b.claim s).1, claimWrites, hop]
    rw [hwork] at hrun
  case fill =>
    let v : State := runClaim b.claim s
    have hpending : v.bank.sweepDue = s.bank.sweepDue := rfl
    by_cases hnext : s.mem.fillProgress + 1 < s.stripes
    · have ht : fillAdvance v = _ := fillAdvance_next (s := v) hnext
      refine ⟨_, hrun.trans (congrArg (fun u => Host.Outcome.next (settle u)) ht), rfl, hwords, fun _ => ⟨rfl, rfl⟩,
        fun hlast => absurd hlast (by omega)⟩
    · have ht : fillAdvance v = _ := fillAdvance_last (s := v) (Nat.not_lt.1 hnext)
      obtain ⟨hmem, hsweep, hnotice⟩ := goActive_spec (v.setMem { v.mem with fillProgress := s.mem.fillProgress + 1 })
      obtain ⟨-, -, -, -, -, -, -, hbank⟩ := goActive_keeps (v.setMem { v.mem with fillProgress := s.mem.fillProgress + 1 })
      refine ⟨_, hrun.trans (congrArg (fun u => Host.Outcome.next (settle u)) ht), congrArg (·.fillProgress) hmem,
        (congrArg Bank.words hbank).trans hwords, fun h => absurd h hnext, fun _ =>
        ⟨congrArg (·.ownState) hmem, congrArg (·.auditTimer) hsweep, hnotice, (congrArg Bank.sweepDue hbank).trans hpending⟩⟩
  case store =>
    let v : State := runClaim b.claim s
    have hlost : v.counters.lost = min (s.counters.lost + (ws.filter (·.isNone)).length) 65535 := by
      simp [v, (runClaim_spec b.claim s).2, satAdd, claimVoids, hop, Config.counterMax]
    obtain ⟨-, -, -, hcounters, hbank⟩ := rebuildAdvance_keeps v
    refine ⟨_, hrun, (rebuildAdvance_spec 0 0 v).1, (congrArg Bank.words hbank).trans hwords,
      (congrArg Counters.lost hcounters).trans hlost, fun hnext => ?_, fun hlast => ?_⟩
    · let u : State := v.setSweep { v.sweep with rebuildPtr := s.sweep.rebuildPtr + 1 }
      have ht : rebuildAdvance v = beginStripe (s.sweep.rebuildPtr + 1) u := rebuildAdvance_next (s := v) hnext
      change (rebuildAdvance v).mem = _ ∧ (_ → (rebuildAdvance v).sweep.rebuildStep = _ ∧ (rebuildAdvance v).tu.asks = _) ∧
        (_ → (rebuildAdvance v).sweep.rebuildStep = _)
      rw [ht]
      refine ⟨(beginStripe_keeps _ u).1, fun haway => ?_, fun hhome => beginStripe_homed (s := u) hhome⟩
      rw [beginStripe_asked (s := u) haway]
      exact ⟨rfl, rfl⟩
    · let u : State := v.setSweep { v.sweep with rebuildPtr := s.sweep.rebuildPtr + 1 }
      have ht : rebuildAdvance v = rebuildComplete u := rebuildAdvance_last (s := v) hlast
      obtain ⟨hmem, hsweep, hnotice⟩ := goActive_spec u
      change (rebuildAdvance v).mem.ownState = _ ∧ (rebuildAdvance v).sweep.rebuildStep = _ ∧
        (rebuildAdvance v).causes.rebuildDone = _ ∧ (rebuildAdvance v).sweep.auditTimer = _ ∧
        ∃ q ∈ (rebuildAdvance v).link.notices.q, _
      rw [ht]
      exact ⟨congrArg (·.ownState) hmem, rfl, rfl, congrArg (·.auditTimer) hsweep, hnotice⟩

end Sys2Proof.Machine
end

section
/-! PROOFS. Claims granted, and claims completed whole (R11, R15, R16, R18, R19, R36, R75, R85, R95, R96, R105, R108, R109, R128,
R135, R136, R140, R149). -/

namespace Sys2Proof.Machine

/-! ### What the work after a claim leaves of the bank port and of the lost words -/

/-- From `r` to `t` the claim in progress is the same, and the lost words have not fallen. -/
structure LostKept (r t : State) : Prop where
  busy : t.bank.busy = r.bank.busy
  lost : r.counters.lost ≤ 65535 → r.counters.lost ≤ t.counters.lost ∧ t.counters.lost ≤ 65535

section
variable {r s t : State}

theorem LostKept.refl (s : State) : LostKept s s := ⟨rfl, fun h => ⟨Nat.le_refl _, h⟩⟩

theorem LostKept.trans (h : LostKept r s) (k : LostKept s t) : LostKept r t where
  busy := k.busy.trans h.busy
  lost hr := ⟨Nat.le_trans (h.lost hr).1 (k.lost (h.lost hr).2).1, (k.lost (h.lost hr).2).2⟩

theorem LostKept.of_blocks (hbank : t.bank.busy = s.bank.busy) (hcounters : t.counters.lost = s.counters.lost) : LostKept s t :=
  ⟨hbank, fun h => ⟨Nat.le_of_eq hcounters.symm, hcounters ▸ h⟩⟩

/-- What comes before an operation and leaves both alone. -/
theorem LostKept.after (k : LostKept s t) (hbank : s.bank.busy = r.bank.busy) (hcounters : s.counters.lost = r.counters.lost) :
    LostKept r t := (LostKept.of_blocks hbank hcounters).trans k

theorem lostKept_finishReadLost (e : LocalEntry) (s : State) : LostKept s (finishReadLost e s) := by
  refine ⟨rfl, fun h => ?_⟩
  rw [finishReadLost_eq]
  dsimp only
  omega

theorem lostKept_portOutcome (addr : Nat) (o : Outcome) (s : State) : LostKept s (portOutcome addr o s) := by
  cases he : startedEntry s addr with
  | none =>
    have hnone : portOutcome addr o s = s := by simp only [portOutcome, he]
    rw [hnone]
    exact .refl s
  | some e =>
    cases hw : e.isWrite with
    | true =>
      rw [portOutcome_write he hw]
      unfold writeOutcome
      (repeat' split) <;> exact .of_blocks rfl rfl
    | false =>
      rw [portOutcome_read he hw]
      unfold readOutcome
      split
      · exact .of_blocks rfl rfl
      · split
        · exact .of_blocks rfl rfl
        · exact lostKept_finishReadLost e s

theorem lostKept_ownReply (n : Nat) (m : Msg) (s : State) : LostKept s (ownReply n m s) := by
  have hend : LostKept s (endSlot n s) := .of_blocks (by simp) (by simp)
  unfold ownReply
  dsimp only
  split
  · exact .refl s
  · split
    · exact .of_blocks rfl rfl
    · exact .of_blocks rfl rfl
    · split
      · exact hend.trans (lostKept_portOutcome ..)
      · exact hend

theorem lostKept_tellRequester (who : Requester) (m : Msg) (s : State) : LostKept s (tellRequester who m s) := by
  cases who with
  | peer src tag seq => exact .of_blocks (by simp [tellRequester]) (by simp [tellRequester])
  | own n => exact lostKept_ownReply n m s
  | internalAudit | internalRebuild | internalList | nobody => exact .refl s

theorem lostKept_firstAnswer (who : Requester) (m : Msg) (s : State) : LostKept s (firstAnswer who m s) := by
  cases who with
  | peer src tag seq => exact .of_blocks (by simp [firstAnswer]) (by simp [firstAnswer])
  | own n => exact lostKept_ownReply n m s
  | internalAudit | internalRebuild | internalList | nobody => exact .refl s

theorem lostKept_deltaApplied (st o : Nat) (old : BankWord) (s : State) : LostKept s (deltaApplied st o old s) := by
  unfold deltaApplied
  split
  · exact .refl s
  · split
    · exact (lostKept_tellRequester ..).after rfl rfl
    · unfold toAnswer
      split
      · exact .of_blocks rfl rfl
      · exact .of_blocks (by simp) (by simp [(holdRequester_blocks _ _).2.1])

theorem repairNext_lost (s : State) : (repairNext s).counters.lost = s.counters.lost := by
  unfold repairNext
  split
  · rfl
  · dsimp only
    split <;> rfl

theorem lostKept_repairOffer (st o : Nat) (s : State) : LostKept s (repairOffer st o s) := by
  refine .of_blocks (by simp) ?_
  unfold repairOffer
  split
  · rfl
  · split
    · rfl
    · exact repairNext_lost _

theorem lostKept_holderDone (reads : List BankWord) (s : State) : LostKept s (holderDone reads s) := by
  unfold holderDone
  split
  · exact .refl s
  next w hw =>
    have hanswer : LostKept s (firstAnswer w.who (holderAnswer w.kind w.f reads) (s.setHolder { s.holder with work := none })) :=
      (lostKept_firstAnswer ..).after rfl rfl
    dsimp only
    split
    · exact hanswer.trans (lostKept_repairOffer ..)
    · exact hanswer

theorem lostKept_beginStep (st : Nat) (step : OpStep) (asks : List Ask) (claims : List Claim) (s : State) :
    LostKept s (beginStep st step asks claims s) := by
  refine .of_blocks ?_ (by simp)
  unfold beginStep askNext
  dsimp only
  rw [foldl_dueClaim_home]
  (repeat' split) <;> rfl

theorem lostKept_closeOp (st : Nat) (s : State) : LostKept s (closeOp st s) := by
  refine .of_blocks (by simp) ?_
  unfold closeOp
  split
  · rfl
  · dsimp only
    split <;> rfl

theorem lostKept_closeAudit (st : Nat) (x : AuditResult) (s : State) : LostKept s (closeAudit st x s) :=
  (lostKept_closeOp st s).trans (.of_blocks (by simp [closeAudit]) (by simp [closeAudit]))

theorem lostKept_sendAnswers (st : Nat) (op : Op) (s : State) : LostKept s (sendAnswers st op s) := by
  have hfold : ∀ (l : List Place) (u : State), LostKept u
      (l.foldl (fun s p => tellRequester p.who { kind := .writeRsp, status := answerStatus s.w op p } s) u) := by
    intro l
    induction l with
    | nil => exact LostKept.refl
    | cons p l ih => exact fun u => (lostKept_tellRequester ..).trans (ih _)
  exact (hfold _ _).after rfl rfl

theorem lostKept_rebuildAdvance (s : State) : LostKept s (rebuildAdvance s) := .of_blocks (by simp) (by simp)

theorem lostKept_replyOp (st : Nat) (s : State) : LostKept s (replyOp st s) := by
  unfold replyOp
  split
  · exact .refl s
  next op hop =>
    dsimp only
    split
    · split
      · rw [filterDone_eq]
        exact (lostKept_closeOp ..).after rfl rfl
      · split
        · split
          · rw [filterDone_eq]
            exact .of_blocks rfl rfl
          · rw [filterDone_eq]
            exact (lostKept_closeOp st s).trans (.of_blocks rfl rfl)
        · exact .of_blocks rfl rfl
    · exact (lostKept_closeOp st s).trans (lostKept_ownReply ..)
    · exact (lostKept_sendAnswers st op s).trans (lostKept_closeOp ..)
    · exact (lostKept_closeOp st s).trans (lostKept_rebuildAdvance _)
    · exact lostKept_closeOp st s
    · exact lostKept_closeOp st s

theorem lostKept_auditOffset (st : Nat) (l : List Nat) (s : State) : LostKept s (auditOffset st l s) := by
  unfold auditOffset
  split
  · exact lostKept_closeAudit ..
  · split
    · exact .refl s
    · exact (lostKept_beginStep ..).after rfl rfl

theorem lostKept_opDecide (st : Nat) (op : Op) (s : State) : LostKept s (opDecide st op s) := by
  have hbegin : ∀ {u : State} step asks claims, LostKept s u → LostKept s (beginStep st step asks claims u) :=
    fun step asks claims h => h.trans (lostKept_beginStep ..)
  have hmap : ∀ g : Op → Op, LostKept s (mapOp st g s) := fun g => .of_blocks rfl rfl
  unfold opDecide
  split
  · split
    · unfold decideRecover
      dsimp only
      split <;> exact hbegin _ _ _ (hmap _)
    · unfold decideMerge
      dsimp only
      split <;> exact hbegin _ _ _ (hmap _)
    · unfold decideDegraded
      dsimp only
      split <;> exact hbegin _ _ _ (hmap _)
    · unfold decideRecompute
      dsimp only
      split <;> exact hbegin _ _ _ (.refl s)
    · unfold decideRebuild
      dsimp only
      split
      · exact lostKept_replyOp st s
      · exact hbegin _ _ _ (.refl s)
    · exact .refl s
  · exact lostKept_replyOp st s
  · exact .refl s
  · unfold decideFold
    split
    · exact lostKept_closeAudit ..
    · split
      · dsimp only
        split
        · exact lostKept_auditOffset ..
        · exact hbegin _ _ _ (.refl s)
      · split
        · exact lostKept_closeAudit ..
        · exact hbegin _ _ _ (.of_blocks rfl rfl)
  · exact lostKept_auditOffset ..
  · unfold decideOffset
    dsimp only
    split
    · exact lostKept_auditOffset ..
    · exact hbegin _ _ _ (.refl s)
    · exact hbegin _ _ _ (.refl s)
    · exact hbegin _ _ _ (.of_blocks rfl rfl)
  · exact lostKept_auditOffset ..
  · exact hbegin _ _ _ (.refl s)
  · exact (lostKept_closeAudit ..).after rfl rfl
  · exact lostKept_closeAudit ..

theorem lostKept_opAdvance (st : Nat) (s : State) : LostKept s (opAdvance st s) := by
  unfold opAdvance
  split
  · exact .refl s
  · split
    · exact lostKept_opDecide ..
    · exact .refl s

theorem lostKept_claimDone (w : ClaimFor) (reads : List BankWord) (s : State) : LostKept s (claimDone w reads s) := by
  cases w with
  | holder => exact lostKept_holderDone reads s
  | delta st o => exact lostKept_deltaApplied ..
  | parityRead st o =>
    unfold claimDone opParityRead
    dsimp only
    split
    · exact .refl s
    · refine LostKept.trans ?_ (lostKept_opAdvance ..)
      split
      · exact .of_blocks (by simp) (by simp)
      · exact .of_blocks rfl rfl
  | parityWrite st => exact (lostKept_opAdvance st _).after rfl rfl
  | fill =>
    refine .of_blocks ?_ (by simp [claimDone])
    unfold claimDone fillAdvance
    dsimp only
    split
    · simp
    · rfl
  | unitStore => exact lostKept_rebuildAdvance s

end

/-! ### The holder's answer at its claim's completion -/

section
variable {s t : State} {k : Kind} {f : Fields} {reads : List BankWord} {st o : Nat}

theorem holderAnswer_final (k : Kind) (f : Fields) (reads : List BankWord) : (holderAnswer k f reads).kind.isFinal = true := by
  cases k <;> simp only [holderAnswer] <;> (repeat' split) <;> rfl

theorem offersRepair_iff : offersRepair k f reads = true ↔
    k = .read ∧ goodIn f.lanes (reads.headD voidWord) = true ∧ isGood (reads.headD voidWord) = false := by
  simp [offersRepair, and_assoc]

theorem repairOffer_listed (h : (st, o) ∈ s.holder.repair) : repairOffer st o s = s := by
  simp [repairOffer, h]

theorem repairOffer_full (h : (st, o) ∉ s.holder.repair) (hfull : 8 ≤ s.holder.repair.length) :
    repairOffer st o s = countDrops 1 s := by
  simp [repairOffer, h, Config.repairPlaces, hfull]

theorem repairOffer_waits (h : (st, o) ∉ s.holder.repair) (hroom : s.holder.repair.length < 8)
    (hout : s.holder.repairOut = true) :
    repairOffer st o s = s.setHolder { s.holder with repair := s.holder.repair ++ [(st, o)] } := by
  simp [repairOffer, h, Config.repairPlaces, Nat.not_le.2 hroom, repairNext, hout]

theorem repairOffer_asks (h : s.holder.repair = []) (hout : s.holder.repairOut = false)
    (hfit : s.counters.repairDrops ≤ 65535) (hhome : (viewAt s (homeOf s.n st)).state.available = true) :
    repairOffer st o s = addAsk (repairAsk s st o)
      (s.setHolder { s.holder with repair := [(st, o)], repairOut := true }) := by
  have hstart : repairOffer st o s = repairNext (s.setHolder { s.holder with repair := [(st, o)] }) := by
    simp [repairOffer, h, Config.repairPlaces]
  have hnext : repairNext (s.setHolder { s.holder with repair := [(st, o)] }) = _ :=
    repairNext_of_available (s := s.setHolder { s.holder with repair := [(st, o)] }) (more := []) hout rfl hhome hfit
  rw [hstart, hnext]
  rfl

/-- Offering a word moves the repair queue, its counter and the asks alone. -/
theorem repairOffer_slots (st o : Nat) (s : State) :
    (repairOffer st o s).tu.slots = s.tu.slots ∧ (repairOffer st o s).holder.work = s.holder.work := by
  have hnext : ∀ u : State, (repairNext u).tu.slots = u.tu.slots ∧ (repairNext u).holder.work = u.holder.work := fun u => by
    unfold repairNext
    split
    · exact ⟨rfl, rfl⟩
    · dsimp only
      split <;> exact ⟨rfl, rfl⟩
  unfold repairOffer
  split
  · exact ⟨rfl, rfl⟩
  · split
    · exact ⟨rfl, rfl⟩
    · exact hnext _

end

end Sys2Proof.Machine
end

section
/-! PROOFS. O57: BANK_GRANT, and each claimant's part in BANK_CLAIM_COMPLETION. -/

namespace Sys2Proof.Machine

/-- The arbiter picks the first claimant in rotation with a claim waiting (R18). -/
theorem arbiterPick_eq {b : Bank} {who : Claimant} {c : Claim} {rest : List Claim} (hdue : b.due who = c :: rest)
    (hturn : who = b.pointer ∨ (who = b.pointer.after ∧ b.due b.pointer = []) ∨
      (who = b.pointer.after.after ∧ b.due b.pointer = [] ∧ b.due b.pointer.after = [])) : arbiterPick b = some who := by
  rcases hturn with rfl | ⟨rfl, h1⟩ | ⟨rfl, h1, h2⟩ <;> simp [arbiterPick, *]

section
variable {s : State} {b : BusyClaim}

theorem runClaim_counters (c : Claim) (s : State) :
    (runClaim c s).counters = { s.counters with lost := min (s.counters.lost + claimVoids c) 65535 } := (runClaim_spec c s).2

/-- The answer to a peer at the completion of the holder's claim: in the place reserved, or nowhere when the view does
not name it available; cached in either case (R36, R79). -/
theorem firstAnswer_reserved {src tag : Nat} {seq : Bool} {m : Msg} (hk : m.kind.isFinal = true) (v : State) :
    ∃ link, firstAnswer (.peer src tag seq) m v = (v.setFilter (doneWith v src tag seq (cacheOf m))).setLink link ∧
      ((viewAt v src).state.available = true → link = { v.link with
        replies := { v.link.replies with q := v.link.replies.q ++ [replyTo v src tag seq m] } }) ∧
      ((viewAt v src).state.available = false → link = v.link) := by
  cases hv : (viewAt v src).state.available with
  | true => exact ⟨_, firstAnswer_peer_final hk hv, fun _ => rfl, fun h => by cases h⟩
  | false =>
    have hne : m.kind ≠ .helloRsp := fun h => by rw [h] at hk; cases hk
    refine ⟨v.link, ?_, fun h => (by cases h), fun _ => rfl⟩
    exact (answerHead_refused (m := { m with dest := .station src, tag := tag, seq := seq }) rfl hne hv).trans
      (filterDone_final hk rfl)

theorem holderDone_eq {w : HolderWork} (reads : List BankWord) {v : State} (h : v.holder.work = some w) :
    holderDone reads v = if offersRepair w.kind w.f reads then
        repairOffer w.f.stripe w.f.offset
          (firstAnswer w.who (holderAnswer w.kind w.f reads) (v.setHolder { v.holder with work := none }))
      else firstAnswer w.who (holderAnswer w.kind w.f reads) (v.setHolder { v.holder with work := none }) := by
  simp only [holderDone, h]

/-- An own slot's write answered by the holder is the write answered by any engine (R75). -/
theorem ownReply_writes {n addr : Nat} {m : Msg} {ok : Bool} {e : LocalEntry} {v : State} (hf : (slotAt v n).inFlight = true)
    (ho : (slotAt v n).owner = some (.port addr)) (he : startedEntry v addr = some e) (hw : e.isWrite = true)
    (hk : m.kind.isFinal = true) (hok : m.status = .ok ↔ ok = true) :
    ownReply n m v = tellRequester (.own n) { kind := .writeRsp, status := if ok then .ok else .lost } v := by
  have he' : startedEntry (endSlot n v) addr = some e := by simpa [startedEntry] using he
  refine (ownReply_final hf ho hk).trans ((portOutcome_write he' hw _).trans ?_)
  refine Eq.trans ?_ ((ownReply_final (s := v) (m := { kind := .writeRsp, status := if ok then .ok else .lost }) hf ho rfl).trans
    (portOutcome_write he' hw _)).symm
  cases ok with
  | true => simp [writeOutcome, hok.2 rfl]
  | false =>
    have hne : m.status ≠ .ok := fun h => by cases hok.1 h
    simp [writeOutcome, hne]

end

theorem opParityWritten_eq {st : Nat} {op : Op} {v : State} (h : opAt v st = some op) :
    ∃ u, opParityWritten st v = opAdvance st u ∧ opAt u st = some { op with claims := op.claims - 1 } ∧
      u.home.accs = v.home.accs ∧ u.home.pool = v.home.pool ∧ u = v.setHome u.home := by
  refine ⟨_, rfl, ?_, rfl, rfl, rfl⟩
  rw [opAt_mapOp, h]
  rfl

theorem opParityRead_eq {st : Nat} {op : Op} {v : State} (first : Nat) (ws : List BankWord) (h : opAt v st = some op)
    (hacc : op.acc < v.home.accs.length) :
    ∃ u, opParityRead st first ws v = opAdvance st u ∧
      opAt u st = some { op with
        claims := op.claims - 1, parity := ws, parityBad := if op.step = .fold then badOffsets ws else op.parityBad } ∧
      (accAt u op.acc = if op.step.accumulates then (accAt v op.acc).contributeFrom op.list.lists first
        (ws.map fun w => if isGood w then some w.data else none) else accAt v op.acc) ∧
      u.home.pool = v.home.pool ∧ u = v.setHome u.home := by
  let d : State := mapOp st (fun op => { op with
    claims := op.claims - 1, parity := ws, parityBad := if op.step == .fold then badOffsets ws else op.parityBad }) v
  have hd : opAt d st = some { op with
      claims := op.claims - 1, parity := ws, parityBad := if op.step = .fold then badOffsets ws else op.parityBad } := by
    rw [opAt_mapOp, h]
    simp only [Option.map_some, beq_iff_eq]
  have hread : opParityRead st first ws v = opAdvance st (if op.step.accumulates then
      accumulate st first (ws.map fun w => if isGood w then some w.data else none) d else d) := by
    simp only [opParityRead, h]
    rfl
  by_cases hsum : op.step.accumulates = true
  · rw [if_pos hsum] at hread
    refine ⟨_, hread, (opAt_accumulate ..).trans hd, ?_, accumulate_pool _, ?_⟩
    · exact accAt_accumulate (s := d) hd hacc _
    · simp only [accumulate, hd, hsum, if_true]
      rfl
  · rw [if_neg hsum] at hread
    exact ⟨d, hread, hd, (if_neg hsum).symm, rfl, rfl⟩

/-- What the offer of a word for repair leaves alone. -/
theorem offeredRepair_blocks (offers : Bool) (st o : Nat) (x : State) :
    let y := if offers then repairOffer st o x else x
    y.holder.work = x.holder.work ∧ y.mem = x.mem ∧ y.port = x.port ∧ y.sweep = x.sweep ∧ y.home = x.home ∧ y.link = x.link ∧
      y.filter = x.filter := by
  cases offers with
  | true =>
    obtain ⟨hmem, hlink, hfilter, hhome, hsweep, hport, -⟩ := repairOffer_keeps st o x
    exact ⟨(repairOffer_slots st o x).2, hmem, hport, hsweep, hhome, hlink, hfilter⟩
  | false => exact ⟨rfl, rfl, rfl, rfl, rfl, rfl, rfl⟩

theorem offeredRepair_slots (offers : Bool) (st o : Nat) (x : State) :
    (if offers then repairOffer st o x else x).tu.slots = x.tu.slots := by
  cases offers with
  | true => exact (repairOffer_slots st o x).1
  | false => rfl

/-- The holder's answer to a peer, and the offer of its word (R36, R108, R109, R135, R136). -/
theorem holderDone_peer {src tag : Nat} {seq : Bool} {k : Kind} {f : Fields} {reads : List BankWord} {v t : State}
    (hwork : v.holder.work = some { who := .peer src tag seq, kind := k, f := f }) (ht : t = holderDone reads v) :
    (t.holder.work = none ∧ t.mem = v.mem ∧ t.port = v.port ∧ t.sweep = v.sweep ∧ t.home = v.home) ∧
    ((viewAt v src).state.available = true → t.link = { v.link with
      replies := { v.link.replies with q := v.link.replies.q ++ [replyTo v src tag seq (holderAnswer k f reads)] } }) ∧
    ((viewAt v src).state.available = false → t.link = v.link) ∧
    t.filter = doneWith v src tag seq (cacheOf (holderAnswer k f reads)) ∧
    (offersRepair k f reads = false ∨ (f.stripe, f.offset) ∈ v.holder.repair →
      t.holder = { v.holder with work := none } ∧ t.tu = v.tu ∧ t.counters = v.counters) ∧
    (offersRepair k f reads = true → (f.stripe, f.offset) ∉ v.holder.repair → 8 ≤ v.holder.repair.length →
      t.holder = { v.holder with work := none } ∧ t.tu = v.tu ∧
      t.counters = { v.counters with repairDrops := min (v.counters.repairDrops + 1) 65535 }) ∧
    (offersRepair k f reads = true → (f.stripe, f.offset) ∉ v.holder.repair → v.holder.repair.length < 8 →
      v.holder.repairOut = true →
      t.holder = { v.holder with work := none, repair := v.holder.repair ++ [(f.stripe, f.offset)] } ∧ t.tu = v.tu ∧
      t.counters = v.counters) ∧
    (offersRepair k f reads = true → v.holder.repair = [] → v.holder.repairOut = false → v.counters.repairDrops ≤ 65535 →
      (viewAt v (homeOf v.n f.stripe)).state.available = true →
      t.holder = { v.holder with work := none, repair := [(f.stripe, f.offset)], repairOut := true } ∧
      t.counters = v.counters ∧ t.tu = { v.tu with asks := v.tu.asks ++ [repairAsk v f.stripe f.offset] }) := by
  let idle : State := v.setHolder { v.holder with work := none }
  obtain ⟨link, hanswer, hgiven, hdropped⟩ :=
    firstAnswer_reserved (src := src) (tag := tag) (seq := seq) (holderAnswer_final k f reads) idle
  let x : State := (idle.setFilter (doneWith v src tag seq (cacheOf (holderAnswer k f reads)))).setLink link
  have hdone : t = if offersRepair k f reads then repairOffer f.stripe f.offset x else x := by
    refine ht.trans ((holderDone_eq (v := v) reads hwork).trans ?_)
    exact congrArg (fun y => if offersRepair k f reads then repairOffer f.stripe f.offset y else y) hanswer
  obtain ⟨hwork', hmem, hport, hsweep, hhome, hlink, hfilter⟩ := offeredRepair_blocks (offersRepair k f reads) f.stripe f.offset x
  rw [← hdone] at hwork' hmem hport hsweep hhome hlink hfilter
  refine ⟨⟨hwork', hmem, hport, hsweep, hhome⟩, fun hv => hlink.trans (hgiven hv), fun hv => hlink.trans (hdropped hv), hfilter,
    fun hno => ?_, fun hyes hnot hfull => ?_, fun hyes hnot hroom hout => ?_, fun hyes hempty hout hfit hv => ?_⟩
  · have hx : (if offersRepair k f reads then repairOffer f.stripe f.offset x else x) = x := by
      split
      next h => exact repairOffer_listed (s := x) (hno.resolve_left fun hn => absurd (h.symm.trans hn) (by simp))
      next => rfl
    rw [hdone, hx]
    exact ⟨rfl, rfl, rfl⟩
  · rw [hdone, if_pos hyes, repairOffer_full (s := x) hnot hfull]
    exact ⟨rfl, rfl, rfl⟩
  · rw [hdone, if_pos hyes, repairOffer_waits (s := x) hnot hroom hout]
    exact ⟨rfl, rfl, rfl⟩
  · rw [hdone, if_pos hyes, repairOffer_asks (s := x) hempty hout hfit hv]
    exact ⟨rfl, rfl, rfl⟩

/-- The holder's answer to an own slot (R75, R101, R105). -/
theorem holderDone_own {n addr : Nat} {k : Kind} {f : Fields} {reads : List BankWord} {e : LocalEntry} {v t : State}
    (hwork : v.holder.work = some { who := .own n, kind := k, f := f }) (hn : n < v.tu.slots.length)
    (hf : (slotAt v n).inFlight = true) (ho : (slotAt v n).owner = some (.port addr)) (he : startedEntry v addr = some e)
    (ht : t = holderDone reads v) :
    (SlotFreed t n ∧ t.holder.work = none ∧ t.link.replies = v.link.replies ∧ t.filter = v.filter ∧ t.mem = v.mem ∧
      t.sweep = v.sweep) ∧
    (k = .read → e.isWrite = false → goodIn f.lanes (reads.headD voidWord) = true →
      t.port = { entryLeft v e.addr with
        ack := true, ldo := maskLanes e.lanes (maskLanes f.lanes (reads.headD voidWord).data), lerr := false }) ∧
    (k = .read → e.isWrite = false → goodIn f.lanes (reads.headD voidWord) = false → e.phase = .first →
      reachable v (homeOf v.n e.stripe) = true →
      t.tu.asks = v.tu.asks ++ [{
        owner := .port e.addr, kind := .recover, dest := homeOf v.n e.stripe
        f := { stripe := e.stripe, position := e.position, offset := e.offset, lanes := e.lanes, purpose := .read } }] ∧
      t.port = { v.port with entries := v.port.entries.map fun x =>
        if x.addr = e.addr ∧ x.started = true then { x with phase := .second } else x }) ∧
    (k = .store → f.lanes ≠ 0 → e.isWrite = true →
      WriteTold v t v.counters (goodIn (~~~ f.lanes) (reads.headD voidWord)) (.own n)) := by
  let idle : State := v.setHolder { v.holder with work := none }
  let m : Msg := holderAnswer k f reads
  obtain ⟨z, hz⟩ : ∃ z, z = portOutcome addr (.replied m) (endSlot n idle) := ⟨_, rfl⟩
  have hanswer : ownReply n m idle = z := (ownReply_final (s := idle) hf ho (holderAnswer_final k f reads)).trans hz.symm
  have hdone : t = if offersRepair k f reads then repairOffer f.stripe f.offset z else z := by
    refine ht.trans ((holderDone_eq (v := v) reads hwork).trans ?_)
    exact congrArg (fun y => if offersRepair k f reads then repairOffer f.stripe f.offset y else y) hanswer
  obtain ⟨zmem, zlink, zfilter, zholder, -, zsweep, -⟩ := portOutcome_keeps addr (.replied m) (endSlot n idle)
  rw [← hz] at zmem zlink zfilter zholder zsweep
  obtain ⟨kmem, kfilter, kholder, -, ksweep, kport, -⟩ := endSlot_keeps n idle
  have he' : startedEntry (endSlot n idle) addr = some e := by simpa [startedEntry, idle] using he
  obtain ⟨hwork', hmem, hport, hsweep, -, hlink, hfilter⟩ := offeredRepair_blocks (offersRepair k f reads) f.stripe f.offset z
  have hslots := offeredRepair_slots (offersRepair k f reads) f.stripe f.offset z
  rw [← hdone] at hwork' hmem hport hsweep hlink hfilter hslots
  have hfreed : SlotFreed z n := by
    have hend : SlotFreed (endSlot n idle) n := slotFreed_endSlot hn
    simpa only [SlotFreed, slotAt, hz, portOutcome_slots] using hend
  have hreplies : (endSlot n idle).link.replies = v.link.replies := (withdrawCopy_link n _).1
  have hasks : (endSlot n idle).tu.asks = v.tu.asks := by simp [endSlot, setSlot, idle]
  refine ⟨⟨?_, hwork'.trans (congrArg Holder.work (zholder.trans kholder)), (congrArg Link.replies (hlink.trans zlink)).trans hreplies,
    hfilter.trans (zfilter.trans kfilter), hmem.trans (zmem.trans kmem), hsweep.trans (zsweep.trans ksweep)⟩, fun hk hw hgood => ?_,
    fun hk hw hbad hph hreach => ?_, fun hk hl hw => ?_⟩
  · simpa only [SlotFreed, slotAt, hslots] using hfreed
  · have hm : m = { kind := .readRsp, f := { payload := [maskLanes f.lanes (reads.headD voidWord).data] } } := by
      simp only [m, hk, holderAnswer]
      exact if_pos hgood
    rw [portOutcome_read he' hw, hm, readOutcome_ok rfl rfl, finishRead_eq] at hz
    refine hport.trans ?_
    rw [hz]
    change ({ entryLeft (endSlot n idle) e.addr with ack := true, ldo := _, lerr := false } : Port) = _
    rw [entryLeft, kport]
    rfl
  · have hm : m = { kind := .readRsp, status := .bad } := by
      simp only [m, hk, holderAnswer]
      exact if_neg (Bool.eq_false_iff.1 hbad)
    have hno : ¬ offersRepair k f reads = true := fun h =>
      absurd ((offersRepair_iff.1 h).2.1.symm.trans hbad) (by simp)
    have hstraps : (endSlot n idle).straps = v.straps := straps_of_fixed (by simp [idle])
    have hgroup : (endSlot n idle).n = v.n := congrArg groupSize hstraps
    have hview : (endSlot n idle).mem = v.mem := kmem
    have hreach' : reachable (endSlot n idle) (homeOf (endSlot n idle).n e.stripe) = true := by
      rw [hgroup]
      simpa only [reachable, viewAt, State.own, hview, hstraps] using hreach
    rw [portOutcome_read he' hw, hm, readOutcome_second (by decide) hph hreach', secondPhase_eq, secondAsk_eq, hgroup, hw] at hz
    rw [if_neg hno] at hdone
    rw [hdone, hz]
    refine ⟨congrArg (· ++ _) hasks, ?_⟩
    change ({ (endSlot n idle).port with entries := (endSlot n idle).port.entries.map _ } : Port) = _
    rw [kport]
    rfl
  · have hno : ¬ offersRepair k f reads = true := fun h => by
      cases hk.symm.trans (offersRepair_iff.1 h).1
    rw [if_neg hno] at hdone
    have hstatus : m.status = .ok ↔ goodIn (~~~ f.lanes) (reads.headD voidWord) = true := by
      have hm : m = if goodIn (~~~ f.lanes) (reads.headD voidWord) then { kind := .storeRsp }
          else { kind := .storeRsp, status := .mergeBad } := by
        simp only [m, hk, holderAnswer, beq_eq_false_iff_ne.2 hl, Bool.false_or]
      rw [hm]
      split
      next hgood => simp only [hgood]
      next hgood => exact ⟨fun h => (by cases h), fun h => absurd h hgood⟩
    have hwrites := ownReply_writes (v := idle) hf ho he hw (holderAnswer_final k f reads) hstatus
    rw [hdone, ← hanswer, hwrites]
    have hplaces : freePlaces idle = freePlaces v := by
      rw [freePlaces_eq, freePlaces_eq, placesInUse_idle]
      simp [placesInUse, Link.replyLoad, hwork]
    have hsame : SameForRequesters v idle := ⟨rfl, rfl, rfl, rfl, rfl, hplaces, rfl, rfl, rfl, fun _ _ _ => rfl⟩
    exact (tellRequester_write (.own n) idle).of_same hsame

/-- Settles O57: the grant by the rotation, the words by the operation, and each claimant's part. -/
theorem claimsAreGrantedAndCompleteWhole : Obligations.ClaimsAreGrantedAndCompleteWhole := by
  refine ⟨fun who c rest s hfree hdue hturn => ?grant, fun b s hbusy hin => ?completion⟩
  case grant =>
    change execBankGrant s = _
    simp only [execBankGrant, hfree, arbiterPick_eq hdue hturn, hdue]
  case completion =>
    intro read word lost
    let ran : State := runClaim b.claim s
    have hran : ran.bank = { s.bank with words := bankSetAll s.bank.words (claimWrites s.bank.words b.claim), busy := none } :=
      (runClaim_spec b.claim s).1
    have hcounters : ran.counters = { s.counters with lost := lost } := runClaim_counters b.claim s
    have hrun := exec_completion hbusy hin
    have hkept := lostKept_claimDone b.claim.work read ran
    have hfixed : (claimDone b.claim.work read ran).fixed = ran.fixed := ((Kept.refl ran).claimDone b.claim.work read).fixed
    obtain ⟨hstraps, -, henables, -, hwords⟩ := sameRecord_of_fixed hfixed
    rw [hran] at hwords
    obtain ⟨t, ht⟩ : ∃ t, t = settle (claimDone b.claim.work read ran) := ⟨_, rfl⟩
    have hwords' : t.bank.words = bankSetAll s.bank.words (claimWrites s.bank.words b.claim) := ht ▸ hwords
    have hbank : ran.bank = { s.bank with words := t.bank.words, busy := none } := by rw [hwords', hran]
    clear hwords
    have hwords := hwords'
    refine ⟨t, hrun.trans (congrArg Host.Outcome.next ht.symm), ht ▸ hkept.busy.trans (by rw [hran]),
      fun w hop => ?_, fun ws hop => ?_, fun g w hop hmerge => ?_, fun g hop hmerge => ?_,
      fun hop => ?_, fun n hop => ?_, ?_, ht ▸ hstraps, ht ▸ henables, fun src tag seq k f hholder hwork => ?_,
      fun n addr e k f hholder hwork hn hf ho he => ?_, fun st op hop hacc hparity => ?_⟩
    · exact hwords.trans (by simp [claimWrites, hop, numbered, bankSetAll])
    · exact hwords.trans (by simp [claimWrites, hop])
    · exact hwords.trans (by simp [claimWrites, hop, hmerge, bankSetAll])
    · exact hwords.trans (by simp [claimWrites, hop, hmerge, bankSetAll])
    · exact hwords.trans (by simp [claimWrites, hop, bankSetAll])
    · exact hwords.trans (by simp [claimWrites, hop, bankSetAll])
    · have hle := (hkept.lost (by rw [hcounters]; exact Nat.min_le_right ..)).1
      rw [hcounters] at hle
      exact ht ▸ hle
    · intro offered listed counted
      rw [hholder] at ht
      obtain ⟨u, hu⟩ : ∃ u, u = holderDone read ran := ⟨_, rfl⟩
      obtain ⟨⟨hidle, hmem, hport, hsweep, hhome⟩, hgiven, hdropped, hfilter, hnone, hfull, hwaits, hasks⟩ :=
        holderDone_peer (v := ran) hwork hu
      have htu : t = settle u := ht.trans (congrArg settle hu.symm)
      have hoffers : offersRepair k f read = true ↔ offered := offersRepair_iff
      subst htu
      refine ⟨hidle, hmem, hport, hsweep, congrArg settleHome hhome, hgiven, hdropped, hfilter, fun hno => ?_,
        fun hyes hnot hlen => ?_, fun hyes hnot hlen hout => ?_, fun hyes hempty hout hfit hv => ?_⟩
      · obtain ⟨hh, htu, hc⟩ := hnone (hno.imp_left fun h => Bool.eq_false_iff.2 fun h' => h (hoffers.1 h'))
        exact ⟨hh, htu, hc.trans hcounters⟩
      · obtain ⟨hh, htu, hc⟩ := hfull (hoffers.2 hyes) hnot hlen
        exact ⟨hh, htu, hc.trans (by rw [hcounters]; rfl)⟩
      · obtain ⟨hh, htu, hc⟩ := hwaits (hoffers.2 hyes) hnot hlen hout
        exact ⟨hh, htu, hc.trans hcounters⟩
      · obtain ⟨hh, hc, htu⟩ := hasks (hoffers.2 hyes) hempty hout (by rw [hcounters]; exact hfit) hv
        exact ⟨hh, hc.trans hcounters, htu⟩
    · rw [hholder] at ht
      obtain ⟨u, hu⟩ : ∃ u, u = holderDone read ran := ⟨_, rfl⟩
      obtain ⟨⟨hfreed, hidle, hreplies, hfilter, hmem, hsweep⟩, hgood, hbad, hwrite⟩ :=
        holderDone_own (v := ran) hwork hn hf ho he hu
      have htu : t = settle u := ht.trans (congrArg settle hu.symm)
      subst htu
      refine ⟨hfreed, hidle, hreplies, hfilter, hmem, hsweep, hgood, hbad, fun hk hl hw => ?_⟩
      have htold := hwrite hk hl hw
      rw [hcounters] at htold
      exact (htold.of_same ⟨rfl, rfl, rfl, rfl, rfl, rfl, rfl, rfl, rfl, fun _ _ _ => rfl⟩).settle
    · have hopr : opAt ran st = some op := hop
      rcases hparity with ⟨o, hread⟩ | hwrite
      · obtain ⟨u, hadv, hu, hsum, hpool, hblocks⟩ := opParityRead_eq o read hopr hacc
        rw [hread] at ht
        refine ⟨u, _, ht.trans (congrArg settle hadv), hu, fun h => by rw [opAdvance, hu]; simp only [h, Bool.false_eq_true, if_false],
          ?_, ?_, ?_, ?_, hpool, ?_, ?_, fun y hy => ?_, fun hy => absurd (hread.symm.trans hy) (by simp)⟩
        · rw [hblocks]; exact hbank
        · rw [hblocks]; exact hcounters
        · rw [hblocks]; rfl
        · rw [hblocks]; rfl
        · rw [hblocks]; rfl
        · rw [hblocks]; rfl
        · obtain rfl : o = y := by injection hread.symm.trans hy
          exact ⟨rfl, hsum⟩
      · obtain ⟨u, hadv, hu, haccs, hpool, hblocks⟩ := opParityWritten_eq hopr
        rw [hwrite] at ht
        refine ⟨u, _, ht.trans (congrArg settle hadv), hu, fun h => by rw [opAdvance, hu]; simp only [h, Bool.false_eq_true, if_false],
          ?_, ?_, ?_, ?_, hpool, ?_, ?_, fun y hy => absurd (hwrite.symm.trans hy) (by simp), fun _ => ⟨rfl, haccs⟩⟩
        · rw [hblocks]; exact hbank
        · rw [hblocks]; exact hcounters
        · rw [hblocks]; rfl
        · rw [hblocks]; rfl
        · rw [hblocks]; rfl
        · rw [hblocks]; rfl

end Sys2Proof.Machine
end

section
/-! PROOFS. The start of an exclusive operation (R84, R85, R93 to R95, R117, R129, R133, R147, R149, R157, R162, R168). -/

namespace Sys2Proof.Machine

/-! ### The first wait item (R84, R147, R157) -/

section
variable {h : Home} {st : Nat} {u : Use} {a b : List Place} {p : Place}

theorem firstIn_eq (h : Home) (st : Nat) (u : Use) :
    h.firstIn st u = h.pool.find? fun x => x.stripe == st && x.use == u := by
  simp only [Home.firstIn, Home.places, List.find?_filter]
  congr 1
  funext x
  exact Bool.eq_iff_iff.2 (by simp)

theorem firstIn_first (hpool : h.pool = a ++ p :: b) (hst : p.stripe = st) (hu : p.use = u)
    (hbefore : ∀ x ∈ a, x.stripe = st → x.use ≠ u) : h.firstIn st u = some p := by
  have hnone : a.find? (fun x => x.stripe == st && x.use == u) = none := by
    simpa [List.find?_eq_none] using hbefore
  rw [firstIn_eq, hpool, List.find?_append, hnone, List.find?_cons_of_pos (by simp [hst, hu])]
  rfl

theorem firstIn_none (hno : ∀ x ∈ h.pool, x.stripe = st → x.use ≠ u) : h.firstIn st u = none := by
  rw [firstIn_eq]
  simpa [List.find?_eq_none] using hno

end

/-! ### The accumulator taken (R85; log entry 41) -/

theorem freeAcc_eq {s : State} {i : Nat} (hlen : s.home.accs.length = 2) (hi : i < 2) (hfree : (accAt s i).used = false)
    (hbelow : ∀ j, j < i → (accAt s j).used = true) : freeAcc s = some i := by
  unfold freeAcc
  unfold accAt at hfree hbelow
  match haccs : s.home.accs, hlen with
  | [x, y], _ =>
    rw [haccs] at hfree hbelow
    match i, hi with
    | 0, _ =>
      have hx : x.used = false := hfree
      simp [hx, List.findIdx_cons]
    | 1, _ =>
      have hx : x.used = true := hbelow 0 (by decide)
      have hy : y.used = false := hfree
      simp [hx, hy, List.findIdx_cons]

/-! ### The range a RECOMPUTE gathers (R133) -/

theorem range_offsets {w low high : Nat} {l : List Nat} (hlow : low ∈ l) (hhigh : high ∈ l)
    (hall : ∀ x ∈ l, low ≤ x ∧ x ≤ high) : (RecList.offsets l).range w = (low, high + 1 - low) := by
  have hmin : ∀ (l : List Nat) (o : Nat), l.foldl min o ≤ o ∧ (∀ x ∈ l, l.foldl min o ≤ x) ∧
      (l.foldl min o = o ∨ l.foldl min o ∈ l) := by
    intro l
    induction l with
    | nil => simp
    | cons x l ih =>
      intro o
      obtain ⟨h1, h2, h3⟩ := ih (min o x)
      refine ⟨by rw [List.foldl_cons]; omega, fun y hy => ?_, ?_⟩
      · rcases List.mem_cons.1 hy with rfl | hy
        · rw [List.foldl_cons]; omega
        · exact h2 y hy
      · rw [List.foldl_cons]
        rcases h3 with h3 | h3
        · rcases Nat.le_total o x with hox | hox
          · exact .inl (by omega)
          · exact .inr (List.mem_cons.2 (.inl (by omega)))
        · exact .inr (List.mem_cons_of_mem _ h3)
  have hmax : ∀ (l : List Nat) (o : Nat), o ≤ l.foldl max o ∧ (∀ x ∈ l, x ≤ l.foldl max o) ∧
      (l.foldl max o = o ∨ l.foldl max o ∈ l) := by
    intro l
    induction l with
    | nil => simp
    | cons x l ih =>
      intro o
      obtain ⟨h1, h2, h3⟩ := ih (max o x)
      refine ⟨by rw [List.foldl_cons]; omega, fun y hy => ?_, ?_⟩
      · rcases List.mem_cons.1 hy with rfl | hy
        · rw [List.foldl_cons]; omega
        · exact h2 y hy
      · rw [List.foldl_cons]
        rcases h3 with h3 | h3
        · rcases Nat.le_total o x with hox | hox
          · exact .inr (List.mem_cons.2 (.inl (by omega)))
          · exact .inl (by omega)
        · exact .inr (List.mem_cons_of_mem _ h3)
  cases l with
  | nil => cases hlow
  | cons o l =>
    obtain ⟨h1, h2, h3⟩ := hmin l o
    obtain ⟨k1, k2, k3⟩ := hmax l o
    have hle : l.foldl min o ≤ low := by
      rcases List.mem_cons.1 hlow with rfl | hl
      · exact h1
      · exact h2 low hl
    have hge : low ≤ l.foldl min o := (hall _ (by rcases h3 with h3 | h3 <;> simp [h3])).1
    have kge : high ≤ l.foldl max o := by
      rcases List.mem_cons.1 hhigh with rfl | hl
      · exact k1
      · exact k2 high hl
    have kle : l.foldl max o ≤ high := (hall _ (by rcases k3 with k3 | k3 <;> simp [k3])).2
    simp only [RecList.range, Prod.mk.injEq]
    omega

/-! ### The operation begun -/

section
variable {st i : Nat} {e : Entry} {op : Op} {p : Place} {s v t : State}

/-- A step begun changes nothing of the home but its operation, and of that its place in the step alone. -/
theorem beginStep_entry (step : OpStep) (asks : List Ask) (claims : List Claim) (h : v.home.entry st = some { e with op := some op }) :
    ∃ op', (beginStep st step asks claims v).home.entry st = some { e with op := some op' } ∧
      op' = { op with step := op'.step, toAsk := op'.toAsk, outstanding := op'.outstanding, claims := op'.claims } ∧
      (beginStep st step asks claims v).home.pool = v.home.pool ∧ (beginStep st step asks claims v).home.accs = v.home.accs := by
  have hmap : ∀ (g : Op → Op) (u : State) (x : Op), u.home.entry st = some { e with op := some x } →
      (mapOp st g u).home.entry st = some { e with op := some (g x) } := fun g u x hu => by
    have := entry_mapEntry_op u.home st fun e => e.op.map g
    exact this.trans (by rw [hu]; rfl)
  let u : State := mapOp st (fun op => { op with step := step, toAsk := asks, claims := op.claims + claims.length }) v
  have hu := hmap (fun op => { op with step := step, toAsk := asks, claims := op.claims + claims.length }) v op h
  have hopu : opAt (u.setBank { u.bank with homeDue := u.bank.homeDue ++ claims }) st =
      some { op with step := step, toAsk := asks, claims := op.claims + claims.length } := by
    rw [opAt_setBank, opAt]
    exact congrArg (fun x : Option Entry => x.bind (·.op)) hu
  have hbegin : beginStep st step asks claims v = askNext st (u.setBank { u.bank with homeDue := u.bank.homeDue ++ claims }) :=
    congrArg (askNext st) (foldl_dueClaim_home claims u)
  rw [hbegin, askNext]
  split
  · exact ⟨_, hu, rfl, rfl, rfl⟩
  · rw [hopu]
    cases asks with
    | nil => exact ⟨_, hu, rfl, rfl, rfl⟩
    | cons a l => exact ⟨_, hmap _ _ _ hu, rfl, rfl, rfl⟩

/-- The step an operation starts with. -/
theorem startWork_begins (st : Nat) (op : Op) (v : State) : ∃ step asks claims, startWork st op v = beginStep st step asks claims v := by
  unfold startWork
  split <;> exact ⟨_, _, _, rfl⟩

/-- A starting operation, once its home step is settled: what is fixed by its head, and its first step (R94, R95). -/
theorem startWork_settled (ht : t = settle (startWork st op v)) (h : v.home.entry st = some { e with op := some op })
    (hc : op.complete = true) :
    ∃ op', opAt t st = some op' ∧
      op' = { op with step := op'.step, toAsk := op'.toAsk, outstanding := op'.outstanding, claims := op'.claims } ∧
      t.home.pool = v.home.pool ∧ t.home.accs = v.home.accs ∧ (t.home.entry st).map (·.recompute) = some e.recompute ∧
      ((∀ a ∈ v.tu.asks, a.owner ≠ .op st) → ∀ step asks claims, startWork st op v = beginStep st step asks claims v →
        op'.step = step ∧ op'.toAsk = asks.drop 1 ∧ op'.outstanding = min asks.length 1 ∧ op'.claims = claims.length ∧
        op'.results = op.results ∧ t.tu = { v.tu with asks := v.tu.asks ++ asks.take 1 } ∧
        t.bank = { v.bank with homeDue := v.bank.homeDue ++ claims }) := by
  obtain ⟨step, asks, claims, hbegin⟩ := startWork_begins st op v
  obtain ⟨op', hentry, hop', hpool, haccs⟩ := beginStep_entry step asks claims h
  rw [← hbegin] at hentry hpool haccs
  have hspent : (startWork st op v).home.spent { e with op := some op' } = false := rfl
  have hsettled : t.home.entry st = some { e with op := some op' } := ht ▸ entry_settle hentry hspent
  have hopt : opAt t st = some op' := congrArg (fun x : Option Entry => x.bind (·.op)) hsettled
  refine ⟨op', hopt, hop', ht ▸ hpool, ht ▸ haccs, by rw [hsettled]; rfl, fun hfree step asks claims hwork => ?_⟩
  have hopv : opAt v st = some op := congrArg (fun x : Option Entry => x.bind (·.op)) h
  obtain ⟨hnext, htu, hbank, -, -⟩ := beginStep_spec step asks claims hopv hc hfree
  rw [← hwork] at hnext htu hbank
  obtain rfl : op' = _ := Option.some.inj (hopt.symm.trans (ht ▸ opAt_settle hnext))
  exact ⟨rfl, rfl, rfl, rfl, rfl, ht ▸ htu, ht ▸ hbank⟩

/-- The entry of a ready stripe with its head taken into accumulator `i` (R85, R95). -/
structure Entered (s v : State) (st i : Nat) (e : Entry) (op : Op) (pool : List Place) : Prop where
  entry : v.home.entry st = some { e with op := some op, recompute := none }
  pool : v.home.pool = pool
  accs : v.home.accs = s.home.accs.set i (freshAccum s.w)
  tu : v.tu = s.tu
  bank : v.bank = s.bank
  straps : v.straps = s.straps

/-- The stripe's entry takes accumulator `i`, its head being the operation `op` now. -/
def takeHead (st i : Nat) (op : Op) (u : State) : State :=
  let x := mapAcc i (fun _ => freshAccum u.w) u
  let y := x.setHome (x.home.mapEntry st fun e => { e with op := some op, recompute := none })
  y.setHome { y.home with accQueue := y.home.accQueue.filter (· != st) }

theorem takeHead_entered (op : Op) {u : State} (he : u.home.entry st = some e) :
    Entered u (takeHead st i op u) st i e op u.home.pool := by
  refine ⟨?_, rfl, rfl, rfl, rfl, rfl⟩
  exact (entry_mapEntry u.home st (fun e => { e with op := some op, recompute := none }) fun _ => rfl).trans (by rw [he]; rfl)

theorem startOp_item (he : s.home.entry st = some e) (hr : e.recompute = none) (hp : s.home.firstWait st = some p) :
    ∃ v, startOp st i s = startWork st (opOfPlace s.d i p) v ∧ Entered s v st i e (opOfPlace s.d i p)
      (s.home.pool.eraseP fun x => x.stripe == st && x.use == p.use) := by
  let u : State := filterPark p.who false (freePlace (fun x => x.stripe == st && x.use == p.use) s)
  have hu : u = (freePlace (fun x => x.stripe == st && x.use == p.use) s).setFilter u.filter := filterPark_eq ..
  have hstart : startOp st i s = startWork st (opOfPlace s.d i p) (takeHead st i (opOfPlace s.d i p) u) := by
    simp only [startOp, he, hr, hp]
    rfl
  refine ⟨_, hstart, ?_⟩
  have hentered := takeHead_entered (i := i) (opOfPlace s.d i p) (u := u) (st := st) (e := e) (by rw [hu]; exact he)
  have hpool : u.home.pool = s.home.pool.eraseP fun x => x.stripe == st && x.use == p.use := by rw [hu]; rfl
  have haccs : u.home.accs = s.home.accs := by rw [hu]; rfl
  have hw : u.w = s.w := by rw [hu]; rfl
  exact ⟨hentered.entry, hentered.pool.trans hpool, hentered.accs.trans (by rw [haccs, hw]), hentered.tu.trans (by rw [hu]; rfl),
    hentered.bank.trans (by rw [hu]; rfl), hentered.straps.trans (by rw [hu]; rfl)⟩

theorem startOp_list {l : RecList} (he : s.home.entry st = some e) (hr : e.recompute = some l) :
    ∃ v, startOp st i s = startWork st (opOfList s.d i l) v ∧ Entered s v st i e (opOfList s.d i l) s.home.pool := by
  have hstart : startOp st i s = startWork st (opOfList s.d i l) (takeHead st i (opOfList s.d i l) s) := by
    simp only [startOp, he, hr]
    rfl
  exact ⟨_, hstart, takeHead_entered _ he⟩

end

/-- Settles O49: the first item is found by `firstIn`, nothing starts while an admission is due, and a start takes the head, frees or
empties its place, and begins the step `startWork` gives its kind. -/
theorem readyEntryStarts : Obligations.ReadyEntryStarts := by
  refine ⟨fun st a b p s hpool hst hbefore huse => ?first, fun s hdue => ?waits,
    fun st i queue e s hq he hurgent hrec hlen hi hfree hbelow => ?starts⟩
  case first =>
    have hp : ∀ u, p.use = u → s.home.firstIn st u = some p := fun u hu =>
      firstIn_first hpool hst hu fun x hx hxst => hu ▸ hbefore x hx hxst
    rcases huse with hu | ⟨hu, hhead⟩ | ⟨hu, hno⟩
    · rw [Home.firstWait, hp _ hu]
      rfl
    · rw [Home.firstWait, firstIn_none hhead, hp _ hu]
      rfl
    · rw [Home.firstWait, firstIn_none fun x hx hxst => (hno x hx hxst).1, firstIn_none fun x hx hxst => (hno x hx hxst).2, hp _ hu]
      rfl
  case waits => exact if_pos (Bool.or_eq_true_iff.2 hdue)
  case starts =>
    have hdue : admissionDue s = false := by rw [admissionDue, hurgent, hrec]; rfl
    have hrun : exec .exclusiveOpStart s = .next (settle (startOp st i s)) := by
      change execExclusiveOpStart s = _
      simp only [execExclusiveOpStart, hdue, Bool.false_eq_true, if_false, hq, freeAcc_eq hlen hi hfree hbelow]
    intro all gather fold read begun unasked
    obtain ⟨hmem, hlink, hholder, -, hport, hcounters, -⟩ := startOp_keeps st i s
    have hrecord : sameRecord s (settle (startOp st i s)) := sameRecord_of_fixed (by simp)
    have hacc : ∀ {t v : State} {op : Op} {pool : List Place}, Entered s v st i e op pool → t.home.accs = v.home.accs →
        accAt t i = { used := true, words := List.replicate s.w 0, flags := List.replicate s.w false } := fun {t v op pool} h ha => by
      rw [accAt, ha, h.accs, List.getD_eq_getElem?_getD, List.getElem?_set_self (by omega)]
      rfl
    refine ⟨fun p hr hp => ?_, fun l hr => ?_⟩
    · obtain ⟨v, hstart, hv⟩ := startOp_item (i := i) he hr hp
      obtain ⟨op', hop', heq, hpool, haccs, -, hbegun⟩ := startWork_settled (e := { e with recompute := none })
        (congrArg settle hstart) hv.entry rfl
      have hfields : ∀ {x : Op}, op' = { x with
          step := op'.step, toAsk := op'.toAsk, outstanding := op'.outstanding, claims := op'.claims } →
          op'.kind = x.kind ∧ op'.who = x.who ∧ op'.acc = x.acc ∧ op'.position = x.position ∧ op'.offset = x.offset ∧
          op'.lanes = x.lanes ∧ op'.purpose = x.purpose ∧ op'.data = x.data := fun h => by
        rw [h]
        exact ⟨rfl, rfl, rfl, rfl, rfl, rfl, rfl, rfl⟩
      obtain ⟨h1, h2, h3, h4, h5, h6, h7, h8⟩ := hfields heq
      refine ⟨_, op', hrun, hop', h1, h2, h3, h4, h5, h6, h7, h8, hpool.trans hv.pool, hacc hv haccs, hmem, hlink, hholder, hport,
        hcounters, hrecord, fun hun => ?_⟩
      have hbegins : ∀ {step asks claims}, startWork st (opOfPlace s.d i p) v = beginStep st step asks claims v →
          begun (settle (startOp st i s)) op' step asks claims := fun {step asks claims} h => by
        obtain ⟨b1, b2, b3, b4, b5, b6, b7⟩ := hbegun (by rw [hv.tu]; exact hun) step asks claims h
        exact ⟨b1, b2, b3, b4, b5, b6.trans (by rw [hv.tu]), b7.trans (by rw [hv.bank])⟩
      have hd : v.d = s.d := congrArg dataUnits hv.straps
      have hn : v.n = s.n := congrArg groupSize hv.straps
      have hw : v.w = s.w := congrArg unitWords hv.straps
      refine ⟨fun hk => ?_, fun hk => ?_, fun hk => ?_, fun hk => ?_, fun hk => ?_⟩
      · rcases hk with hk | hk <;>
        · refine hbegins ?_
          simp only [startWork, opOfPlace, hk, WorkKind.opKind, otherPositions, positions, parityWordRead, hd, hn, hv.straps]
          rfl
      · refine hbegins ?_
        simp only [startWork, opOfPlace, hk, WorkKind.opKind, otherPositions, positions, parityWordRead, hd, hn, hv.straps, beq_iff_eq]
        rfl
      · refine hbegins ?_
        simp only [startWork, opOfPlace, hk, WorkKind.opKind, otherPositions, positions, parityUnitRead, hd, hn, hw, hv.straps]
        rfl
      · refine hbegins ?_
        simp only [startWork, opOfPlace, hk, WorkKind.opKind, positions, parityUnitRead, hd, hn, hw, hv.straps]
        rfl
      · refine hbegins ?_
        simp only [startWork, opOfPlace, hk, WorkKind.opKind, positions, RecList.range, hd, hn, hw]
        rfl
    · obtain ⟨v, hstart, hv⟩ := startOp_list (i := i) he hr
      obtain ⟨op', hop', heq, hpool, haccs, hrecompute, hbegun⟩ := startWork_settled (e := { e with recompute := none })
        (congrArg settle hstart) hv.entry rfl
      have hfields : ∀ {x : Op}, op' = { x with
          step := op'.step, toAsk := op'.toAsk, outstanding := op'.outstanding, claims := op'.claims } →
          op'.kind = x.kind ∧ op'.who = x.who ∧ op'.list = x.list ∧ op'.acc = x.acc := fun h => by
        rw [h]
        exact ⟨rfl, rfl, rfl, rfl⟩
      obtain ⟨h1, h2, h3, h4⟩ := hfields heq
      refine ⟨_, op', hrun, hop', h1, h2, h3, h4, hrecompute, hpool.trans hv.pool, hacc hv haccs, hmem, hlink, hholder, hport,
        hcounters, hrecord, fun hun => ?_⟩
      have hd : v.d = s.d := congrArg dataUnits hv.straps
      have hn : v.n = s.n := congrArg groupSize hv.straps
      have hw : v.w = s.w := congrArg unitWords hv.straps
      have hbegins : ∀ {first count : Nat}, l.range s.w = (first, count) →
          begun (settle (startOp st i s)) op' .gather (all.map (gather first count)) [] := fun {first count} h => by
        have hwork : startWork st (opOfList s.d i l) v = beginStep st .gather (all.map (gather first count)) [] v := by
          simp only [startWork, opOfList, positions, hd, hn, hw, h]
          rfl
        obtain ⟨b1, b2, b3, b4, b5, b6, b7⟩ := hbegun (by rw [hv.tu]; exact hun) _ _ _ hwork
        exact ⟨b1, b2, b3, b4, b5, b6.trans (by rw [hv.tu]), b7.trans (by rw [hv.bank])⟩
      refine ⟨fun hl => hbegins (by rw [hl]; rfl), fun offsets low high hl hlow hhigh hall => hbegins ?_⟩
      rw [hl]
      exact range_offsets hlow hhigh hall

end Sys2Proof.Machine
end

section
/-! PROOFS. What handing out the outcomes of ended slots leaves: the work of the station that went away stays ended, and the
view, the FAIL notices and the queued replies stay (R47, R73). -/

namespace Sys2Proof.Machine

/-- The parts of the station that say whether another station's work has ended, with the view and the notices. -/
structure WorkCore where
  straps : StrapPins
  views : List ViewEntry
  slots : List Slot
  filter : List FilterEntry
  inbound : List Msg
  notices : List OutMsg
  requests : List OutMsg
  replies : List OutMsg
  waiters : List Waiter
  pool : List Place
  table : List Entry
  viewCause : Bool
  window : JoinWindow

/-- Those parts of a state. -/
def workCore (s : State) : WorkCore :=
  { straps := s.straps, views := s.mem.views, slots := s.tu.slots, filter := s.filter, inbound := s.link.inbound
    notices := s.link.notices.q, requests := s.link.requests.q, replies := s.link.replies.q, waiters := s.link.waiters
    pool := s.home.pool, table := s.home.table, viewCause := s.causes.view, window := s.mem.window }

/-- The work of station `j` is ended in `c`, and what else stays as it was in `r`. -/
structure QuietCore (j : Nat) (r c : WorkCore) : Prop where
  straps : c.straps = r.straps
  view : j ≠ ownNo r.straps → c.views.getD j {} = r.views.getD j {}
  cause : c.viewCause = r.viewCause
  window : c.window = r.window
  fails : c.notices.filter (fun q => q.msg.kind == .fail) = r.notices.filter (fun q => q.msg.kind == .fail)
  answers : ∀ q ∈ r.replies, q ∈ c.replies
  asked : ∀ q ∈ c.requests, q ∈ r.requests
  slots : ∀ x ∈ c.slots, x.inFlight = true → x.dest ≠ j
  filter : ∀ e ∈ c.filter, e.src ≠ j
  inbound : ∀ m ∈ c.inbound, m.kind.isRequest = true → m.source ≠ j
  places : ∀ p ∈ c.pool, p.who.isPeer j = false
  ops : ∀ e ∈ c.table, ∀ op, e.op = some op → op.who.isPeer j = false
  replies : ∀ m ∈ c.replies, m.msg.dest = .station j → m.msg.kind = .helloRsp
  held : ∀ w ∈ c.waiters, w.repliesTo j = false

/-- From `r` to `s` the work of station `j` is ended and nothing about it has come up. -/
def Quiet (j : Nat) (r s : State) : Prop := QuietCore j (workCore r) (workCore s)

section
variable {j : Nat} {r s : State}

theorem Quiet.of_ended (h : WorkEnded j s) : Quiet j s s :=
  ⟨rfl, fun _ => rfl, rfl, rfl, rfl, fun _ h => h, fun _ h => h, h.slots, h.filter, h.inbound, h.places, h.ops, h.replies, h.held⟩

theorem Quiet.ended (h : Quiet j r s) : WorkEnded j s :=
  ⟨h.slots, h.filter, h.inbound, h.places, h.ops, h.replies, h.held⟩

theorem Quiet.foldl {α : Type} {g : State → α → State} {l : List α} (hg : ∀ {s} x, x ∈ l → Quiet j r s → Quiet j r (g s x))
    (h : Quiet j r s) : Quiet j r (l.foldl g s) := by
  induction l generalizing s with
  | nil => exact h
  | cons x l ih => exact ih (fun y hy => hg y (List.mem_cons_of_mem _ hy)) (hg x (List.mem_cons_self ..) h)

/-! ### Blocks -/

theorem Quiet.setSlots {l : List Slot} (h : Quiet j r s) (hl : ∀ x ∈ l, x ∈ s.tu.slots ∨ (x.inFlight = true → x.dest ≠ j)) :
    Quiet j r (s.setTu { s.tu with slots := l }) :=
  ⟨h.straps, h.view, h.cause, h.window, h.fails, h.answers, h.asked, fun x hx => (hl x hx).elim (h.slots x) id,
    h.filter, h.inbound, h.places, h.ops, h.replies, h.held⟩

theorem Quiet.setSlot {n : Nat} {x : Slot} (h : Quiet j r s) (hx : x.inFlight = true → x.dest ≠ j) :
    Quiet j r (setSlot n x s) := by
  refine h.setSlots fun y hy => ?_
  rcases List.mem_or_eq_of_mem_set hy with hy | rfl
  · exact .inl hy
  · exact .inr hx

theorem Quiet.setFilter {l : List FilterEntry} (h : Quiet j r s) (hl : ∀ e ∈ l, e.src ≠ j) : Quiet j r (s.setFilter l) :=
  ⟨h.straps, h.view, h.cause, h.window, h.fails, h.answers, h.asked, h.slots, hl, h.inbound, h.places, h.ops, h.replies, h.held⟩

theorem Quiet.setHome {v : Home} (h : Quiet j r s) (hpool : ∀ p ∈ v.pool, p.who.isPeer j = false)
    (htable : ∀ e ∈ v.table, ∀ op, e.op = some op → op.who.isPeer j = false) : Quiet j r (s.setHome v) :=
  ⟨h.straps, h.view, h.cause, h.window, h.fails, h.answers, h.asked, h.slots, h.filter, h.inbound, hpool, htable, h.replies, h.held⟩

theorem Quiet.setPool {l : List Place} (h : Quiet j r s) (hl : ∀ p ∈ l, p.who.isPeer j = false) :
    Quiet j r (s.setHome { s.home with pool := l }) := h.setHome hl h.ops

theorem Quiet.mapEntry {st : Nat} {g : Entry → Entry} (h : Quiet j r s)
    (hg : ∀ e op, (g e).op = some op → ∃ op', e.op = some op' ∧ op.who = op'.who) :
    Quiet j r (s.setHome (s.home.mapEntry st g)) := by
  refine h.setHome h.places fun e he op hop => ?_
  obtain ⟨e', he', rfl⟩ := List.mem_map.1 he
  split at hop
  · obtain ⟨op', hop', hwho⟩ := hg e' op hop
    exact hwho ▸ h.ops e' he' op' hop'
  · exact h.ops e' he' op hop

theorem Quiet.addReply {m : OutMsg} (h : Quiet j r s) (hm : m.msg.dest = .station j → m.msg.kind = .helloRsp) :
    Quiet j r (s.setLink { s.link with replies := { s.link.replies with q := s.link.replies.q ++ [m] } }) :=
  ⟨h.straps, h.view, h.cause, h.window, h.fails, fun q hq => List.mem_append_left _ (h.answers q hq), h.asked,
    h.slots, h.filter, h.inbound, h.places, h.ops, fun x hx => (List.mem_append.1 hx).elim (h.replies x) fun hx => List.mem_singleton.1 hx ▸ hm, h.held⟩

theorem Quiet.addWaiter {w : Waiter} (h : Quiet j r s) (hw : w.repliesTo j = false) :
    Quiet j r (s.setLink { s.link with waiters := s.link.waiters ++ [w] }) :=
  ⟨h.straps, h.view, h.cause, h.window, h.fails, h.answers, h.asked, h.slots, h.filter, h.inbound, h.places, h.ops, h.replies,
    fun x hx => (List.mem_append.1 hx).elim (h.held x) fun hx => List.mem_singleton.1 hx ▸ hw⟩

theorem Quiet.setNotices {v : Link} (h : Quiet j r s) (hin : v.inbound = s.link.inbound) (hreplies : v.replies = s.link.replies)
    (hwaiters : v.waiters = s.link.waiters)
    (hrequests : ∀ q ∈ v.requests.q, q ∈ s.link.requests.q)
    (hfails : v.notices.q.filter (fun q => q.msg.kind == .fail) = s.link.notices.q.filter (fun q => q.msg.kind == .fail)) :
    Quiet j r (s.setLink v) :=
  ⟨h.straps, h.view, h.cause, h.window, hfails.trans h.fails, fun q hq => by
      change q ∈ v.replies.q
      rw [hreplies]
      exact h.answers q hq, fun q hq => h.asked q (hrequests q hq), h.slots, h.filter, fun m hm => by
      change m ∈ v.inbound at hm
      rw [hin] at hm
      exact h.inbound m hm, h.places, h.ops, fun m hm => by
      change m ∈ v.replies.q at hm
      rw [hreplies] at hm
      exact h.replies m hm, fun w hw => by
      change w ∈ v.waiters at hw
      rw [hwaiters] at hw
      exact h.held w hw⟩

theorem Quiet.setBank (v : Bank) (h : Quiet j r s) : Quiet j r (s.setBank v) := h

theorem Quiet.setSweep (v : Sweep) (h : Quiet j r s) : Quiet j r (s.setSweep v) := h

theorem Quiet.setHolder (v : Holder) (h : Quiet j r s) : Quiet j r (s.setHolder v) := h

theorem Quiet.setCounters (v : Counters) (h : Quiet j r s) : Quiet j r (s.setCounters v) := h

theorem Quiet.addAsk (a : Ask) (h : Quiet j r s) : Quiet j r (addAsk a s) := h

theorem Quiet.causeAudit (h : Quiet j r s) : Quiet j r (causeAudit s) := h

/-! ### The link -/

theorem Quiet.pushReply {m : OutMsg} (h : Quiet j r s) (hm : m.msg.dest = .station j → m.msg.kind = .helloRsp) :
    Quiet j r (pushReply m s) := h.addReply hm

theorem Quiet.withdrawCopy (n : Nat) (h : Quiet j r s) : Quiet j r (withdrawCopy n s) := by
  obtain ⟨hreplies, hnotices, hin, -, hwaiters⟩ := withdrawCopy_link n s
  have heq : Machine.withdrawCopy n s = s.setLink (Machine.withdrawCopy n s).link := withdraw_eq ..
  rw [heq]
  refine h.setNotices hin hreplies hwaiters (fun q hq => ?_) (by rw [hnotices])
  rw [withdrawCopy_requests] at hq
  exact (List.mem_filter.1 hq).1

theorem Quiet.endSlot (n : Nat) (h : Quiet j r s) : Quiet j r (endSlot n s) :=
  (h.setSlot (by simp [Slot.inFlight])).withdrawCopy n

theorem replaceFirst_filter {p q : OutMsg → Bool} {x : OutMsg} (hx : q x = false) (hp : ∀ m, p m = true → q m = false) :
    ∀ l, (replaceFirst p x l).filter q = l.filter q
  | [] => rfl
  | m :: l => by
    rw [replaceFirst]
    split
    next hm => rw [List.filter_cons_of_neg (by simp [hx]), List.filter_cons_of_neg (by simp [hp m hm])]
    next => rw [List.filter_cons, List.filter_cons, replaceFirst_filter hx hp l]

/-- A notice that is no FAIL leaves the FAILs queued. -/
theorem Quiet.queueNotice {n : Msg} (h : Quiet j r s) (hn : n.kind ≠ .fail) : Quiet j r (queueNotice n s) := by
  have hkind : (stamp s n).kind = n.kind := rfl
  have hnew : ((stamp s n).kind == .fail) = false := beq_eq_false_iff_ne.2 hn
  unfold Machine.queueNotice
  dsimp only
  split
  · exact h
  · split
    · refine h.setNotices rfl rfl rfl (fun _ h => h) (replaceFirst_filter hnew ?_ _)
      intro m hm
      unfold noticeReplaces at hm
      rw [hkind] at hm
      split at hm
      · rw [Bool.or_eq_true, beq_iff_eq, beq_iff_eq] at hm
        rcases hm with hm | hm <;> simp [hm]
      · rw [Bool.or_eq_true, beq_iff_eq, beq_iff_eq] at hm
        rcases hm with hm | hm <;> simp [hm]
      next hfail => exact absurd hfail hn
      · cases hm
    · refine h.setNotices rfl rfl rfl (fun _ h => h) ?_
      rw [List.filter_append, List.filter_cons_of_neg (by simp [hn, hkind])]
      simp

theorem Quiet.filterStep {src tag : Nat} {seq : Bool} {x : FilterState} (h : Quiet j r s) :
    Quiet j r (filterStep src tag seq x s) := by
  refine h.setFilter fun e he => ?_
  obtain ⟨e', he', rfl⟩ := List.mem_map.1 he
  (repeat' split) <;> exact h.filter e' he'

theorem Quiet.filterPark (who : Requester) (b : Bool) (h : Quiet j r s) : Quiet j r (filterPark who b s) := by
  cases who with
  | peer src tag seq => exact h.filterStep
  | own n => exact h
  | internalAudit | internalRebuild | internalList | nobody => exact h

theorem Quiet.filterDone (m : Msg) (h : Quiet j r s) : Quiet j r (filterDone m s) := by
  unfold Machine.filterDone
  split
  · split
    · exact h.filterStep
    · exact h
  · exact h

/-! ### Requesters told -/

theorem Quiet.portOutcome (addr : Nat) (o : Outcome) (h : Quiet j r s) : Quiet j r (portOutcome addr o s) := by
  cases he : startedEntry s addr with
  | none =>
    have hnone : Machine.portOutcome addr o s = s := by simp only [Machine.portOutcome, he]
    rw [hnone]
    exact h
  | some e =>
    cases hw : e.isWrite with
    | true =>
      rw [portOutcome_write he hw]
      unfold writeOutcome
      (repeat' split) <;> exact h
    | false =>
      rw [portOutcome_read he hw]
      unfold readOutcome
      (repeat' split) <;> exact h

theorem Quiet.slotAt (n : Nat) (h : Quiet j r s) (hf : (slotAt s n).inFlight = true) : (slotAt s n).dest ≠ j := by
  unfold Machine.slotAt at hf ⊢
  rw [List.getD_eq_getElem?_getD] at hf ⊢
  cases hx : s.tu.slots[n]? with
  | none => simp [hx, Slot.inFlight] at hf
  | some x =>
    rw [hx] at hf
    exact h.slots x (List.mem_of_getElem? hx) hf

theorem Quiet.ownReply (n : Nat) (m : Msg) (h : Quiet j r s) : Quiet j r (ownReply n m s) := by
  unfold Machine.ownReply
  dsimp only
  split
  · exact h
  next hf =>
    have hdest := h.slotAt n (by simpa using hf)
    split
    · exact h.setSlot fun _ => hdest
    · exact h.setSlot fun _ => hdest
    · split
      · exact (h.endSlot n).portOutcome _ _
      · exact h.endSlot n

theorem Quiet.emitReply {m : Msg} (h : Quiet j r s) (hm : m.dest ≠ .station j) : Quiet j r (emitReply m s) := by
  unfold Machine.emitReply
  split
  · exact h.filterDone m
  · split
    · exact (h.filterDone m).pushReply fun hd => absurd hd hm
    · exact h.addWaiter (beq_eq_false_iff_ne.2 hm)

theorem Quiet.tellRequester {who : Requester} (m : Msg) (h : Quiet j r s) (hwho : who.isPeer j = false) :
    Quiet j r (tellRequester who m s) := by
  cases who with
  | peer src tag seq =>
    refine h.emitReply fun hd => ?_
    have hne : src ≠ j := beq_eq_false_iff_ne.1 hwho
    exact hne (by injection hd)
  | own n => exact h.ownReply n m
  | internalAudit | internalRebuild | internalList | nobody => exact h

theorem Quiet.holdRequester {who : Requester} (h : Quiet j r s) (hwho : who.isPeer j = false) : Quiet j r (holdRequester who s) :=
  (h.filterPark who true).tellRequester _ hwho

/-! ### The home's table and pool -/

theorem Quiet.freePlace (test : Place → Bool) (h : Quiet j r s) : Quiet j r (freePlace test s) :=
  h.setPool fun p hp => h.places p (List.mem_of_mem_eraseP hp)

theorem Quiet.movePlace {test : Place → Bool} {g : Place → Place} (h : Quiet j r s) (hg : ∀ p, (g p).who = p.who) :
    Quiet j r (movePlace test g s) := by
  unfold Machine.movePlace
  split
  · exact h
  next x hx =>
    refine h.setPool fun p hp => ?_
    rcases List.mem_append.1 hp with hp | hp
    · exact h.places p (List.mem_of_mem_eraseP hp)
    · rw [List.mem_singleton.1 hp, hg]
      exact h.places x (List.mem_of_find?_eq_some hx)

theorem Quiet.takePlace {p : Place} (h : Quiet j r s) (hp : p.who.isPeer j = false) : Quiet j r (takePlace p s) := by
  have hens : (s.home.ensure p.stripe).pool = s.home.pool ∧ ∀ e ∈ (s.home.ensure p.stripe).table, ∀ op, e.op = some op →
      e ∈ s.home.table := by
    unfold Home.ensure
    split
    · exact ⟨rfl, fun e he _ _ => he⟩
    · refine ⟨rfl, fun e he op hop => ?_⟩
      rcases List.mem_append.1 he with he | he
      · exact he
      · rw [List.mem_singleton.1 he] at hop
        cases hop
  refine h.setHome (fun x hx => ?_) fun e he op hop => h.ops e (hens.2 e he op hop) op hop
  rcases List.mem_append.1 hx with hx | hx
  · rw [hens.1] at hx
    exact h.places x hx
  · exact List.mem_singleton.1 hx ▸ hp

theorem Quiet.mapOp {st : Nat} {g : Op → Op} (h : Quiet j r s) (hg : ∀ op, (g op).who = op.who) : Quiet j r (mapOp st g s) := by
  refine h.mapEntry fun e op hop => ?_
  obtain ⟨op', hop', rfl⟩ := Option.map_eq_some_iff.1 hop
  exact ⟨op', hop', hg op'⟩

theorem Quiet.settle (h : Quiet j r s) : Quiet j r (settle s) :=
  h.setHome h.places fun e he => h.ops e (List.mem_filter.1 he).1

theorem Quiet.mapAcc (i : Nat) (g : Accum → Accum) (h : Quiet j r s) : Quiet j r (mapAcc i g s) := h

/-! ### The exclusive operations -/

theorem Quiet.setOwnState (x : OwnState) (h : Quiet j r s) : Quiet j r (setOwnState x s) := by
  refine ⟨h.straps, fun hj => ?_, h.cause, h.window, h.fails, h.answers, h.asked, h.slots, h.filter, h.inbound, h.places,
    h.ops, h.replies, h.held⟩
  have hown : s.own = ownNo r.straps := congrArg ownNo h.straps
  have hne : s.own ≠ j := fun he => hj (he.symm.trans hown)
  refine Eq.trans ?_ (h.view hj)
  change (s.mem.views.set s.own _).getD j {} = s.mem.views.getD j {}
  rw [List.getD_eq_getElem?_getD, List.getElem?_set_ne hne, ← List.getD_eq_getElem?_getD]

theorem Quiet.goActive (h : Quiet j r s) : Quiet j r (goActive s) :=
  Quiet.setSweep _ (Quiet.queueNotice (h.setOwnState .active) (by decide))

theorem Quiet.beginStripe (st : Nat) (h : Quiet j r s) : Quiet j r (beginStripe st s) := by
  unfold Machine.beginStripe offerRecompute
  split
  · split
    · exact h.takePlace rfl
    · exact h
  · exact h

theorem Quiet.causeRebuildDone (h : Quiet j r s) : Quiet j r (causeRebuildDone s) := h

theorem Quiet.rebuildComplete (h : Quiet j r s) : Quiet j r (rebuildComplete s) := by
  unfold Machine.rebuildComplete
  exact Quiet.causeRebuildDone (Quiet.setSweep _ (Quiet.goActive h))

theorem Quiet.rebuildAdvance (h : Quiet j r s) : Quiet j r (rebuildAdvance s) := by
  have hmoved := Quiet.setSweep { s.sweep with rebuildPtr := s.sweep.rebuildPtr + 1 } h
  rcases Nat.lt_or_ge (s.sweep.rebuildPtr + 1) s.stripes with hnext | hlast
  · rw [rebuildAdvance_next hnext]
    exact Quiet.beginStripe _ hmoved
  · rw [rebuildAdvance_last hlast]
    exact Quiet.rebuildComplete hmoved

theorem Quiet.auditEnd (x : AuditResult) (h : Quiet j r s) : Quiet j r (auditEnd x s) := by
  cases x <;> exact h

theorem Quiet.askNext (st : Nat) (h : Quiet j r s) : Quiet j r (askNext st s) := by
  unfold Machine.askNext
  split
  · exact h
  · split
    · exact h
    · split
      · exact h
      · exact h.mapOp fun _ => rfl

theorem Quiet.beginStep {st : Nat} {step : OpStep} {asks : List Ask} {claims : List Claim} (h : Quiet j r s) :
    Quiet j r (beginStep st step asks claims s) := by
  have hmapped : Quiet j r (Machine.mapOp st (fun op => { op with
    step := step, toAsk := asks, claims := op.claims + claims.length }) s) := h.mapOp fun _ => rfl
  have hdue := foldl_dueClaim_home claims (Machine.mapOp st (fun op => { op with
    step := step, toAsk := asks, claims := op.claims + claims.length }) s)
  unfold Machine.beginStep
  dsimp only
  rw [hdue]
  exact (hmapped.setBank _).askNext st

theorem Quiet.closeOp (st : Nat) (h : Quiet j r s) : Quiet j r (closeOp st s) := by
  have hclosed : Quiet j r (s.setHome (s.home.mapEntry st fun e => { e with op := none })) :=
    h.mapEntry fun e op hop => by cases hop
  unfold Machine.closeOp
  split
  · exact h
  · dsimp only
    split <;> exact hclosed

theorem Quiet.closeAudit (st : Nat) (x : AuditResult) (h : Quiet j r s) : Quiet j r (closeAudit st x s) :=
  (h.closeOp st).auditEnd x

theorem Quiet.sendAnswers (st : Nat) (op : Op) (h : Quiet j r s) : Quiet j r (sendAnswers st op s) := by
  refine Quiet.foldl (fun p hp k => k.tellRequester _ ?_) (h.setPool fun p hp => h.places p (List.mem_filter.1 hp).1)
  exact h.places p (List.mem_filter.1 (List.mem_filter.1 hp).1).1

theorem Quiet.opWho {st : Nat} {op : Op} (h : Quiet j r s) (hop : opAt s st = some op) : op.who.isPeer j = false := by
  obtain ⟨e, he, hop'⟩ := Option.bind_eq_some_iff.1 hop
  exact h.ops e (List.mem_of_find?_eq_some he) op hop'

theorem Quiet.replyOp (st : Nat) (h : Quiet j r s) : Quiet j r (replyOp st s) := by
  unfold Machine.replyOp
  split
  · exact h
  next op hop =>
    have hwho := h.opWho hop
    have hmapped : Quiet j r (Machine.mapOp st (fun op => { op with step := .reply }) s) := h.mapOp fun _ => rfl
    dsimp only
    split
    next src tag seq heq =>
      have hne : src ≠ j := by
        rw [heq] at hwho
        exact beq_eq_false_iff_ne.1 hwho
      have hdest : ∀ m : OutMsg, m.msg.dest = .station src → m.msg.dest = .station j → m.msg.kind = .helloRsp :=
        fun m hm hd => absurd (Dest.station.inj (hm.symm.trans hd)) hne
      split
      · exact (h.filterDone _).closeOp st
      · split
        · split
          · exact (hmapped.filterDone _).pushReply (hdest _ rfl)
          · exact ((h.closeOp st).filterDone _).pushReply (hdest _ rfl)
        · refine hmapped.addWaiter ?_
          exact beq_eq_false_iff_ne.2 fun hd => hne (Dest.station.inj hd)
    · exact (h.closeOp st).ownReply _ _
    · exact (h.sendAnswers st op).closeOp st
    · exact (h.closeOp st).rebuildAdvance
    · exact h.closeOp st
    · exact h.closeOp st

theorem Quiet.auditOffset (st : Nat) (l : List Nat) (h : Quiet j r s) : Quiet j r (auditOffset st l s) := by
  unfold Machine.auditOffset
  split
  · exact h.closeAudit _ _
  · split
    · exact h
    · exact Quiet.beginStep (Quiet.mapOp (h.mapAcc _ _) fun _ => rfl)

theorem Quiet.opDecide (st : Nat) (op : Op) (h : Quiet j r s) : Quiet j r (opDecide st op s) := by
  unfold Machine.opDecide
  split
  · split
    · unfold decideRecover
      dsimp only
      split <;> exact Quiet.beginStep (Quiet.mapOp h fun _ => rfl)
    · unfold decideMerge
      dsimp only
      split <;> exact Quiet.beginStep (Quiet.mapOp h fun _ => rfl)
    · unfold decideDegraded
      dsimp only
      split <;> exact Quiet.beginStep (Quiet.mapOp h fun _ => rfl)
    · unfold decideRecompute
      dsimp only
      split <;> exact h.beginStep
    · unfold decideRebuild
      dsimp only
      split
      · exact h.replyOp st
      · exact h.beginStep
    · exact h
  · exact h.replyOp st
  · exact h
  · unfold decideFold
    split
    · exact h.closeAudit _ _
    · split
      · dsimp only
        split
        · exact h.auditOffset _ _
        · exact h.beginStep
      · split
        · exact h.closeAudit _ _
        · exact Quiet.beginStep (Quiet.mapOp (h.mapAcc _ _) fun _ => rfl)
  · exact h.auditOffset _ _
  · unfold decideOffset
    dsimp only
    split
    · exact h.auditOffset _ _
    · exact h.beginStep
    · exact h.beginStep
    · exact h.causeAudit.beginStep
  · exact h.auditOffset _ _
  · exact h.beginStep
  · exact (h.setCounters _).causeAudit.closeAudit _ _
  · exact h.closeAudit _ _

theorem Quiet.opAdvance (st : Nat) (h : Quiet j r s) : Quiet j r (opAdvance st s) := by
  unfold Machine.opAdvance
  split
  · exact h
  · split
    · exact h.opDecide st _
    · exact h

theorem Quiet.accumulate (st first : Nat) (ws : List (Option Word)) (h : Quiet j r s) : Quiet j r (accumulate st first ws s) := by
  unfold Machine.accumulate
  (repeat' split) <;> exact h

theorem Quiet.memberGone (st k : Nat) (h : Quiet j r s) : Quiet j r (stopAudit st (memberUnavailable st k s)) := by
  refine Quiet.mapOp (h.mapOp fun _ => rfl) fun op => ?_
  split <;> rfl

theorem Quiet.opUnavailable (st : Nat) (kind : Kind) (f : Fields) (h : Quiet j r s) :
    Quiet j r (opOutcome st kind f .unavailable s) := by
  have hcounted : Quiet j r (Machine.mapOp st (fun op => { op with outstanding := op.outstanding - 1 }) s) := h.mapOp fun _ => rfl
  refine Quiet.opAdvance st ?_
  unfold recordOutcome
  split
  next heq => cases heq
  next heq => cases heq
  next heq => cases heq
  · exact hcounted.memberGone st _
  · exact (hcounted.accumulate _ _ _).memberGone st _

/-! ### Outcomes of slots ended by a view change (R47, R73) -/

theorem Quiet.memberUnavailableOutcome (st n : Nat) (kind : Kind) (h : Quiet j r s) :
    Quiet j r (memberOutcome st n kind .unavailable s) := by
  unfold memberOutcome
  split
  · exact h
  next p hp =>
    have hwho : p.who.isPeer j = false := h.places p (List.mem_of_find?_eq_some hp)
    split
    · exact (h.freePlace _).tellRequester _ hwho
    · unfold updateOutcome toConversion
      dsimp only
      split
      · exact h.freePlace _
      · exact Quiet.holdRequester (Quiet.movePlace h fun _ => rfl) hwho

theorem Quiet.repairNext (h : Quiet j r s) : Quiet j r (repairNext s) := by
  unfold Machine.repairNext
  split
  · exact h
  · dsimp only
    split <;> exact h

theorem Quiet.handUnavailable (n : Nat) (x : Slot) (h : Quiet j r s) : Quiet j r (handOutcome n x .unavailable s) := by
  unfold handOutcome
  split
  · exact h
  · exact h.portOutcome _ _
  · exact h.memberUnavailableOutcome _ _ _
  · exact h.opUnavailable _ _ _
  · exact (h.setSweep _).setBank _
  · exact ((h.setHolder _).setCounters _).repairNext

theorem Quiet.handEnded (ended : List (Nat × Slot)) (h : Quiet j r s) : Quiet j r (handEnded ended s) :=
  Quiet.foldl (fun e _ k => k.handUnavailable e.1 e.2) h

end

end Sys2Proof.Machine
end

section
/-! PROOFS. A view entry that goes down ends its station's work here (R47, R48, R51, R59, R69, R98). -/

namespace Sys2Proof.Machine

section
variable {j : Nat} {v : ViewEntry} {s t : State}

theorem WorkEnded.of_blocks (h : WorkEnded j s) (hslots : t.tu.slots = s.tu.slots) (hfilter : t.filter = s.filter)
    (hin : t.link.inbound = s.link.inbound) (hreplies : t.link.replies.q = s.link.replies.q)
    (hwaiters : t.link.waiters = s.link.waiters) (hpool : t.home.pool = s.home.pool) (htable : t.home.table = s.home.table) :
    WorkEnded j t :=
  ⟨hslots ▸ h.slots, hfilter ▸ h.filter, hin ▸ h.inbound, hpool ▸ h.places, htable ▸ h.ops, hreplies ▸ h.replies, hwaiters ▸ h.held⟩

/-! ### The slots ended (R73) -/

/-- The slots of the tags named are ended, one after another. -/
theorem foldl_endSlot_slotAt (l : List (Nat × Slot)) (u : State) {n : Nat} (hn : n < u.tu.slots.length)
    (hf : (slotAt (l.foldl (fun s e => endSlot e.1 s) u) n).inFlight = true) :
    slotAt (l.foldl (fun s e => endSlot e.1 s) u) n = slotAt u n ∧ ∀ e ∈ l, e.1 ≠ n := by
  induction l generalizing u with
  | nil => exact ⟨rfl, by simp⟩
  | cons e l ih =>
    have hlen : (endSlot e.1 u).tu.slots.length = u.tu.slots.length := by simp [endSlot, setSlot, setAt]
    obtain ⟨hsame, hnot⟩ := ih (endSlot e.1 u) (hlen ▸ hn) hf
    by_cases he : e.1 = n
    · subst he
      rw [List.foldl_cons, hsame, endSlot_slot hn] at hf
      cases hf
    · refine ⟨hsame.trans (endSlot_other he), fun x hx => ?_⟩
      rcases List.mem_cons.1 hx with rfl | hx
      · exact he
      · exact hnot x hx

theorem foldl_endSlot_blocks (l : List (Nat × Slot)) (u : State) :
    let w := l.foldl (fun s e => endSlot e.1 s) u
    w.tu.slots.length = u.tu.slots.length ∧ w.mem = u.mem ∧ w.filter = u.filter ∧ w.home = u.home ∧ w.causes = u.causes ∧
      w.link.replies = u.link.replies ∧ w.link.notices = u.link.notices ∧ w.link.inbound = u.link.inbound ∧
      w.link.waiters = u.link.waiters := by
  induction l generalizing u with
  | nil => exact ⟨rfl, rfl, rfl, rfl, rfl, rfl, rfl, rfl, rfl⟩
  | cons e l ih =>
    have hlen : (endSlot e.1 u).tu.slots.length = u.tu.slots.length := by simp [endSlot, setSlot, setAt]
    obtain ⟨kmem, kfilter, -, khome, -, -, -, kcauses, -⟩ := endSlot_keeps e.1 u
    obtain ⟨kreplies, knotices, kin, -, kwaiters⟩ := withdrawCopy_link e.1
      (setSlot e.1 { (slotAt u e.1).stopped with state := .free, owner := none } u)
    obtain ⟨h1, h2, h3, h4, h5, h6, h7, h8, h9⟩ := ih (endSlot e.1 u)
    exact ⟨h1.trans hlen, h2.trans kmem, h3.trans kfilter, h4.trans khome, h5.trans kcauses, h6.trans kreplies, h7.trans knotices,
      h8.trans kin, h9.trans kwaiters⟩

theorem slotAt_eq_getElem {u : State} {n : Nat} (hn : n < u.tu.slots.length) : slotAt u n = u.tu.slots[n] := by
  rw [slotAt, List.getD_eq_getElem?_getD, List.getElem?_eq_getElem hn]
  rfl

/-- No slot in flight to `j` is left when those to `j` were ended. -/
theorem no_slot_to (u : State) :
    ∀ x ∈ (((slotsTo u j).map fun n => (n, slotAt u n)).foldl (fun s e => endSlot e.1 s) u).tu.slots,
      x.inFlight = true → x.dest ≠ j := by
  intro x hx hf hd
  obtain ⟨n, hn, rfl⟩ := List.getElem_of_mem hx
  obtain ⟨hlen, -⟩ := foldl_endSlot_blocks ((slotsTo u j).map fun n => (n, slotAt u n)) u
  rw [← slotAt_eq_getElem hn] at hf hd
  have hn' : n < u.tu.slots.length := hlen ▸ hn
  obtain ⟨hsame, hnot⟩ := foldl_endSlot_slotAt _ u hn' hf
  rw [hsame] at hf hd
  refine hnot (n, slotAt u n) (List.mem_map.2 ⟨n, ?_, rfl⟩) rfl
  exact List.mem_filter.2 ⟨List.mem_range.2 hn', by simp [hf, hd]⟩

theorem foldl_endSlot_requests (l : List (Nat × Slot)) (u : State) :
    ∀ q ∈ (l.foldl (fun s e => endSlot e.1 s) u).link.requests.q, q ∈ u.link.requests.q := by
  induction l generalizing u with
  | nil => exact fun _ h => h
  | cons e l ih =>
    intro q hq
    have hended := ih (endSlot e.1 u) q hq
    unfold endSlot at hended
    rw [withdrawCopy_requests] at hended
    exact (List.mem_filter.1 hended).1

/-! ### The replies withdrawn, and the home's part (R36, R98) -/

theorem dropReplies_spec (j : Nat) (s : State) :
    (∀ m ∈ (dropReplies j s).link.replies.q, m.msg.dest ≠ .station j) ∧
    (∀ w ∈ (dropReplies j s).link.waiters, w.repliesTo j = false) ∧
    (dropReplies j s).link.notices.q = s.link.notices.q ∧ (dropReplies j s).link.requests.q = s.link.requests.q ∧
    dropReplies j s = s.setLink (dropReplies j s).link := by
  have hreplies := withdraw_link .reply (toStation j) s .reply
  have hnotices := withdraw_link .reply (toStation j) s .notice
  rw [if_pos rfl] at hreplies
  rw [if_neg (by decide)] at hnotices
  have hrequests := withdraw_link .reply (toStation j) s .request
  rw [if_neg (by decide)] at hrequests
  refine ⟨fun m hm hd => ?_, fun w hw => ?_, hnotices, hrequests, ?_⟩
  · have hm' : m ∈ (s.link.replies.q.filter fun m => !toStation j m) := hreplies ▸ hm
    have hto := (List.mem_filter.1 hm').2
    simp [toStation, hd] at hto
  · have := (List.mem_filter.1 hw).2
    simpa using this
  · unfold dropReplies
    rw [withdraw_eq]
    rfl

theorem closeOp_table (st : Nat) (s : State) {e : Entry} (he : e ∈ (closeOp st s).home.table) {op : Op} (hop : e.op = some op) :
    ∃ e' ∈ s.home.table, e'.op = some op := by
  have hclosed : ∀ h : Home, h.table = s.home.table → e ∈ (h.mapEntry st fun e => { e with op := none }).table →
      ∃ e' ∈ s.home.table, e'.op = some op := fun h ht hmem => by
    obtain ⟨e', he', rfl⟩ := List.mem_map.1 hmem
    split at hop
    · cases hop
    · exact ⟨e', ht ▸ he', hop⟩
  unfold closeOp at he
  split at he
  · exact ⟨e, he, hop⟩
  · dsimp only at he
    split at he <;> exact hclosed _ rfl he

theorem loseRequester_isPeer {p p' : Place} (h : loseRequester j p = some p') : p'.who.isPeer j = false := by
  unfold loseRequester at h
  split at h
  · split at h
    · cases h
      rfl
    · cases h
      rfl
    all_goals cases h
  next hp =>
    cases h
    simpa using hp

theorem opLoses_isPeer (j : Nat) (op : Op) : (opLoses j op).who.isPeer j = false := by
  unfold opLoses
  split
  · rfl
  next h => simpa using h

theorem loseAtHome_spec (j : Nat) (s : State) :
    (∀ p ∈ (loseAtHome j s).home.pool, p.who.isPeer j = false) ∧
    (∀ e ∈ (loseAtHome j s).home.table, ∀ op, e.op = some op → op.who.isPeer j = false) ∧
    (loseAtHome j s).mem = s.mem ∧ (loseAtHome j s).link = s.link ∧ (loseAtHome j s).tu = s.tu ∧
    (loseAtHome j s).filter = s.filter ∧ (loseAtHome j s).causes = s.causes := by
  have hfold : ∀ (l : List Nat) (u : State),
      let w := l.foldl (fun s st => closeOp st s) u
      (∀ p ∈ w.home.pool, p ∈ u.home.pool) ∧
      (∀ e ∈ w.home.table, ∀ op, e.op = some op → ∃ e' ∈ u.home.table, e'.op = some op) ∧
      w.mem = u.mem ∧ w.link = u.link ∧ w.tu = u.tu ∧ w.filter = u.filter ∧ w.causes = u.causes := by
    intro l
    induction l with
    | nil => exact fun u => ⟨fun _ h => h, fun e he op hop => ⟨e, he, hop⟩, rfl, rfl, rfl, rfl, rfl⟩
    | cons st l ih =>
      intro u
      obtain ⟨h1, h2, h3, h4, h5, h6, h7⟩ := ih (closeOp st u)
      obtain ⟨kmem, klink, ktu, kfilter, -, -, -, kcauses, -⟩ := closeOp_keeps st u
      have hpool : (closeOp st u).home.pool = u.home.pool := by
        unfold closeOp
        split
        · rfl
        · dsimp only
          split <;> rfl
      refine ⟨fun p hp => hpool ▸ h1 p hp, fun e he op hop => ?_, h3.trans kmem, h4.trans klink, h5.trans ktu, h6.trans kfilter,
        h7.trans kcauses⟩
      obtain ⟨e', he', hop'⟩ := h2 e he op hop
      exact closeOp_table st u he' hop'
  obtain ⟨h1, h2, h3, h4, h5, h6, h7⟩ := hfold (repliesDue s j) (s.setHome { s.home with
    pool := s.home.pool.filterMap (loseRequester j), table := s.home.table.map fun e => { e with op := e.op.map (opLoses j) } })
  refine ⟨fun p hp => ?_, fun e he op hop => ?_, h3, h4, h5, h6, h7⟩
  · obtain ⟨p', -, hlost⟩ := List.mem_filterMap.1 (h1 p hp)
    exact loseRequester_isPeer hlost
  · obtain ⟨e', he', hop'⟩ := h2 e he op hop
    obtain ⟨e'', -, rfl⟩ := List.mem_map.1 he'
    obtain ⟨op', -, rfl⟩ := Option.map_eq_some_iff.1 hop'
    exact opLoses_isPeer j op'

theorem dropInbound_spec (j : Nat) (s : State) :
    (∀ m ∈ (dropInbound j s).link.inbound, m.kind.isRequest = true → m.source ≠ j) ∧
    (∀ w ∈ (dropInbound j s).link.waiters, w ∈ s.link.waiters) ∧
    dropInbound j s = s.setLink { s.link with
      inbound := (dropInbound j s).link.inbound, waiters := (dropInbound j s).link.waiters } := by
  refine ⟨fun m hm hk hs => ?_, fun w hw => ?_, rfl⟩
  · have := (List.mem_filter.1 hm).2
    simp [hs, hk] at this
  · unfold dropInbound at hw
    dsimp only [State.setLink_link] at hw
    split at hw
    · exact (List.mem_filter.1 hw).1
    · exact hw

/-! ### The entry goes down -/

/-- The view entry of station `j` is `v` in `t`, the station's work here is ended, and the rest of what the step reports is as
in `s`. -/
structure DownFrom (j : Nat) (v : ViewEntry) (s t : State) : Prop where
  mem : t.mem = (setView j v s).mem
  cause : t.causes.view = (s.causes.view || (viewAt s j).state != v.state)
  notices : t.link.notices.q = s.link.notices.q
  requests : ∀ q ∈ t.link.requests.q, q ∈ s.link.requests.q
  ended : WorkEnded j t

theorem DownFrom.withdrawUrgent (h : DownFrom j v s t) : DownFrom j v s (withdrawUrgent t) := by
  obtain ⟨kmem, klink, ktu, kfilter, -, khome, -, -, kcauses, -⟩ := withdrawUrgent_keeps t
  exact ⟨kmem.trans h.mem, kcauses ▸ h.cause, klink ▸ h.notices, klink ▸ h.requests,
    h.ended.of_blocks (by rw [ktu]) kfilter (by rw [klink]) (by rw [klink]) (by rw [klink]) (by rw [khome]) (by rw [khome])⟩

theorem viewDown_spec (j : Nat) (v : ViewEntry) (s : State) : DownFrom j v s (viewDown j v s).1 := by
  have hdrop := dropReplies_spec j (setView j v s)
  unfold viewDown
  dsimp only
  generalize dropReplies j (setView j v s) = u at hdrop ⊢
  obtain ⟨hreplies, hheld, hnotices, hrequests, heq⟩ := hdrop
  have humem : u.mem = (setView j v s).mem := by rw [heq]; rfl
  have hucauses : u.causes = s.causes := by rw [heq]; rfl
  have hslots := no_slot_to (j := j) u
  have hcopies := foldl_endSlot_requests ((slotsTo u j).map fun t => (t, slotAt u t)) u
  have hfold := foldl_endSlot_blocks ((slotsTo u j).map fun t => (t, slotAt u t)) u
  generalize ((slotsTo u j).map fun t => (t, slotAt u t)).foldl (fun s e => endSlot e.1 s) u = w at hslots hcopies hfold ⊢
  obtain ⟨-, wmem, -, -, wcauses, wreplies, wnotices, -, wwaiters⟩ := hfold
  have hhome := loseAtHome_spec j w
  generalize loseAtHome j w = x at hhome ⊢
  obtain ⟨hpool, htable, xmem, xlink, xtu, -, xcauses⟩ := hhome
  obtain ⟨hin, hwait, hdropped⟩ := dropInbound_spec j (x.setFilter (x.filter.filter fun e => e.src != j))
  have hdown : DownFrom j v s (causeView ((viewAt s j).state != v.state)
      (dropInbound j (x.setFilter (x.filter.filter fun e => e.src != j)))) := by
    refine ⟨(xmem.trans wmem).trans humem, ?_, ?_, ?_, ?_⟩
    · change (x.causes.view || _) = _
      rw [xcauses, wcauses, hucauses]
    · change x.link.notices.q = _
      rw [xlink, wnotices, hnotices]
      rfl
    · intro q hq
      change q ∈ x.link.requests.q at hq
      rw [xlink] at hq
      have hkept := hcopies q hq
      rw [hrequests] at hkept
      exact hkept
    · refine ⟨xtu.symm ▸ hslots, fun e he => ?_, hin, hpool, htable, fun m hm hd => ?_, fun r hr => ?_⟩
      · have := (List.mem_filter.1 he).2
        simpa using this
      · change m ∈ x.link.replies.q at hm
        rw [xlink, wreplies] at hm
        exact absurd hd (hreplies m hm)
      · have hr' : r ∈ x.link.waiters := hwait r hr
        rw [xlink, wwaiters] at hr'
        exact hheld r hr'
  split
  · exact hdown.withdrawUrgent
  · exact hdown

theorem viewAt_setView (hlen : s.mem.views.length = 8) (hj : j < 8) (hmem : t.mem = (setView j v s).mem) : viewAt t j = v := by
  rw [viewAt, hmem]
  simp [setView, setAt, List.getD_eq_getElem?_getD, hlen, hj]

end

end Sys2Proof.Machine
end

section
/-! PROOFS. The messages and the expiry that take a view entry down (R47, R48, R51, R59, R69). -/

namespace Sys2Proof.Machine

section
variable {j : Nat} {v : ViewEntry} {s t u : State}

/-- The outcomes of the ended slots are handed out with the station's work ended. -/
theorem WorkEnded.handed (l : List (Nat × Slot)) (h : WorkEnded j u) : Quiet j u (settle (handEnded l u)) :=
  Quiet.settle (Quiet.handEnded l (Quiet.of_ended h))

theorem Quiet.viewAt_eq (h : Quiet j u t) (hj : j ≠ u.own) : viewAt t j = viewAt u j := h.view hj

theorem Quiet.causes_view (h : Quiet j u t) : t.causes.view = u.causes.view := h.cause

theorem Quiet.mem_fail (h : Quiet j u t) {q : OutMsg} (hq : q.msg.kind = .fail) :
    q ∈ t.link.notices.q ↔ q ∈ u.link.notices.q := by
  have hfails : t.link.notices.q.filter (fun q => q.msg.kind == .fail) = u.link.notices.q.filter fun q => q.msg.kind == .fail := h.fails
  have hmem := congrArg (q ∈ ·) hfails
  simpa [hq] using hmem

theorem viewDown_own (j : Nat) (v : ViewEntry) (s : State) : (viewDown j v s).1.own = s.own :=
  own_of_straps (straps_of_fixed (viewDown_fixed j v s))

/-- The state of an entry that may fail. -/
theorem failed_changes (h : v.state = .joining ∨ v.state = .rebuilding ∨ v.state = .active) : (v.state != .failed) = true := by
  rcases h with h | h | h <;> rw [h] <;> decide

theorem queueNotice_link (n : Msg) (u : State) :
    (queueNotice n u).link.inbound = u.link.inbound ∧ (queueNotice n u).link.replies = u.link.replies ∧
    (queueNotice n u).link.waiters = u.link.waiters ∧ (queueNotice n u).link.requests = u.link.requests := by
  unfold queueNotice
  dsimp only
  (repeat' split) <;> exact ⟨rfl, rfl, rfl, rfl⟩

/-- A station reported unreachable. -/
theorem reportUnreachable_spec (hlen : s.mem.views.length = 8) (hj : j < 8) (hown : j ≠ s.own)
    (hv : (viewAt s j).state = .joining ∨ (viewAt s j).state = .rebuilding ∨ (viewAt s j).state = .active) :
    let t := reportUnreachable j s
    viewAt t j = { viewAt s j with state := .failed } ∧ WorkEnded j t ∧ t.causes.view = true ∧
      (∃ q ∈ t.link.notices.q, q.msg.kind = .fail ∧ q.msg.dest = .all ∧ q.msg.target = j ∧ q.msg.targetInc = (viewAt s j).inc) ∧
      (∀ q ∈ t.link.requests.q, q ∈ s.link.requests.q) ∧ t.mem.window = s.mem.window := by
  have hrun : reportUnreachable j s = settle (handEnded (viewDown j { viewAt s j with state := .failed } s).2
      (queueNotice (failNotice .all j (viewAt s j).inc) (viewDown j { viewAt s j with state := .failed } s).1)) := by
    unfold reportUnreachable
    rcases hv with h | h | h <;> rw [h]
  have hdown := viewDown_spec j { viewAt s j with state := .failed } s
  have hownd := viewDown_own j { viewAt s j with state := .failed } s
  intro t
  have ht : t = _ := hrun
  generalize (viewDown j { viewAt s j with state := .failed } s).2 = ended at ht
  generalize (viewDown j { viewAt s j with state := .failed } s).1 = d at ht hdown hownd
  clear_value t
  subst ht
  obtain ⟨kmem, ktu, kfilter, -, khome, -, -, -, kcauses, -⟩ := queueNotice_keeps (failNotice .all j (viewAt s j).inc) d
  obtain ⟨kin, kreplies, kwaiters, krequests⟩ := queueNotice_link (failNotice .all j (viewAt s j).inc) d
  have hended : WorkEnded j (queueNotice (failNotice .all j (viewAt s j).inc) d) :=
    hdown.ended.of_blocks (by rw [ktu]) kfilter kin (by rw [kreplies]) kwaiters (by rw [khome]) (by rw [khome])
  have hquiet := hended.handed ended
  have hownq : (queueNotice (failNotice .all j (viewAt s j).inc) d).own = s.own :=
    (own_of_straps (straps_of_fixed (queueNotice_fixed _ d))).trans hownd
  refine ⟨?_, hquiet.ended, ?_, ?_, fun q hq => ?_, ?_⟩
  · rw [hquiet.viewAt_eq (hownq ▸ hown), viewAt, kmem]
    exact viewAt_setView hlen hj hdown.mem
  · rw [hquiet.causes_view, kcauses, hdown.cause, failed_changes hv, Bool.or_true]
  · obtain ⟨q, hq, hmsg⟩ := mem_queueNotice (failNotice .all j (viewAt s j).inc) d
    have hkind : q.msg.kind = .fail := by rw [hmsg]; rfl
    exact ⟨q, (hquiet.mem_fail hkind).2 hq, hkind, by rw [hmsg]; rfl, by rw [hmsg]; rfl, by rw [hmsg]; rfl⟩
  · have hkept := hquiet.asked q hq
    change q ∈ (queueNotice (failNotice .all j (viewAt s j).inc) d).link.requests.q at hkept
    rw [krequests] at hkept
    exact hdown.requests q hkept
  · refine hquiet.window.trans ?_
    change (queueNotice _ d).mem.window = _
    rw [kmem, hdown.mem]
    rfl

/-- Settles O33: the expiry of a slot that was delivered twice reports its destination unreachable, and the outcomes of the ended
slots leave that work ended. -/
theorem secondExpiryDeclaresFailure : Obligations.SecondExpiryDeclaresFailure := by
  unfold Obligations.SecondExpiryDeclaresFailure
  intro tag s x v hlen hdest hown hsent hresponse hattempts hv
  have hrun : exec (.responseTimerExpiry tag) s =
      .next (reportUnreachable x.dest (setSlot tag.toNat { x with response := none } s)) := by
    have hlimit : Config.attemptLimit ≤ x.attempts := hattempts
    have hruns : x.response.isSome = true := Option.isSome_iff_ne_none.2 hresponse
    change execResponseTimerExpiry tag s = _
    unfold execResponseTimerExpiry
    dsimp only
    rw [if_pos (by simp [show (slotAt s tag.toNat).state = .sent from hsent, show (slotAt s tag.toNat).response.isSome from hruns]),
      if_pos hlimit]
  obtain ⟨hview, hended, hcause, hfail, -, -⟩ :=
    reportUnreachable_spec (s := setSlot tag.toNat { x with response := none } s) (j := x.dest) hlen hdest hown hv
  exact ⟨_, hrun, hview, hended, hcause, hfail, sameRecord_of_fixed (reportUnreachable_fixed ..)⟩

/-- Settles O36: a FAIL whose target the view knows in that incarnation takes the entry down; any other only leaves the queue. -/
theorem failsEndTheTarget : Obligations.FailsEndTheTarget := by
  unfold Obligations.FailsEndTheTarget
  intro m rest s hlive hin hkind hown hlen htarget v known
  have hhead : inboundOf .fail s = some m := hkind ▸ inboundOf_cons hlive hin
  have hother : (m.target == (popInbound s).own) = false := beq_eq_false_iff_ne.2 hown
  have hexec : exec .fail s = match v.state with
      | .absent | .failed => .next (popInbound s)
      | .joining | .rebuilding | .active =>
        if v.inc == m.targetInc then
          .next (settle (handEnded (viewDown m.target { v with state := .failed } (popInbound s)).2
            (viewDown m.target { v with state := .failed } (popInbound s)).1))
        else .next (popInbound s) := by
    change execFail s = _
    unfold execFail
    rw [hhead]
    dsimp only
    rw [hother]
    rfl
  refine ⟨fun ⟨hv, hinc⟩ => ?_, fun hnot => ?_⟩
  · have hrun : exec .fail s = .next (settle (handEnded (viewDown m.target { v with state := .failed } (popInbound s)).2
        (viewDown m.target { v with state := .failed } (popInbound s)).1)) := by
      rw [hexec, hinc]
      rcases hv with h | h | h <;> rw [h] <;> simp
    have hdown := viewDown_spec m.target { v with state := .failed } (popInbound s)
    have hquiet := hdown.ended.handed (viewDown m.target { v with state := .failed } (popInbound s)).2
    refine ⟨_, hrun, ?_, hquiet.ended, ?_, fun q hq hfail => ?_, sameRecord_of_fixed (by simp)⟩
    · rw [hquiet.viewAt_eq (by rw [viewDown_own]; exact hown)]
      exact viewAt_setView hlen htarget hdown.mem
    · rw [hquiet.causes_view, hdown.cause]
      exact (congrArg (_ || ·) (failed_changes hv)).trans (Bool.or_true _)
    · have hq' := (hquiet.mem_fail hfail).1 hq
      rwa [hdown.notices] at hq'
  · have hrun : exec .fail s = .next (popInbound s) := by
      rw [hexec]
      cases hs : v.state with
      | absent | failed => rfl
      | joining | rebuilding | active =>
        have hinc : v.inc ≠ m.targetInc := fun hinc => hnot ⟨by simp [hs], hinc⟩
        simp [hinc]
    exact ⟨_, hrun, rfl, congrArg (·.link.inbound) (popInbound_cons hin), rfl, rfl, rfl⟩

/-- Settles O34: a HELLO takes the sender's entry down to JOINING, and the HELLO_RSP pushed then stays queued while the outcomes of
the ended slots are handed out. -/
theorem helloIsAnswered : Obligations.HelloIsAnswered := by
  unfold Obligations.HelloIsAnswered
  intro m rest s hlive hin hkind hlen hsource hown
  have hhead : inboundOf .hello s = some m := hkind ▸ inboundOf_cons hlive hin
  refine ⟨fun hplace => ?_, fun hplace => ?_⟩
  · have hrun : exec .hello s = .next (settle (handEnded
        (viewDown m.source { state := .joining, inc := m.sInc, mode := m.mode } (popInbound s)).2
        (pushReply { msg := { kind := .helloRsp, dest := .station m.source, nState := shownState s.mem.ownState } }
          (viewDown m.source { state := .joining, inc := m.sInc, mode := m.mode } (popInbound s)).1))) := by
      change execHello s = _
      unfold execHello
      rw [hhead]
      dsimp only
      rw [hplace]
      rfl
    have hdown := viewDown_spec m.source { state := .joining, inc := m.sInc, mode := m.mode } (popInbound s)
    have hownd := viewDown_own m.source { state := .joining, inc := m.sInc, mode := m.mode } (popInbound s)
    have hfixed := viewDown_fixed m.source { state := .joining, inc := m.sInc, mode := m.mode } (popInbound s)
    generalize (viewDown m.source { state := .joining, inc := m.sInc, mode := m.mode } (popInbound s)).2 = ended at hrun
    generalize (viewDown m.source { state := .joining, inc := m.sInc, mode := m.mode } (popInbound s)).1 = d
      at hrun hdown hownd hfixed
    have hended : WorkEnded m.source
        (pushReply { msg := { kind := .helloRsp, dest := .station m.source, nState := shownState s.mem.ownState } } d) :=
      (Quiet.pushReply (Quiet.of_ended hdown.ended) fun _ => rfl).ended
    have hquiet := hended.handed ended
    refine ⟨_, hrun, ?_, hquiet.ended, ?_, ?_, ?_, sameRecord_of_fixed ?_⟩
    · rw [hquiet.viewAt_eq (by exact hownd ▸ hown)]
      exact viewAt_setView (s := popInbound s) hlen hsource hdown.mem
    · exact ⟨_, hquiet.answers _ (List.mem_append_right _ (List.mem_singleton.2 rfl)), rfl, rfl, rfl, rfl, rfl⟩
    · rw [hquiet.causes_view]
      exact hdown.cause.trans (congrArg (s.causes.view || ·) (bne_eq_decide ..))
    · have hinc : d.mem.ownInc = s.mem.ownInc := by rw [hdown.mem]; rfl
      exact (Kept.settle (Kept.handEnded ended (.refl _))).inc.trans hinc
    · rw [settle_fixed, handEnded_fixed]
      exact hfixed.trans (popInbound_fixed s)
  · refine ⟨waitHead s, ?_, ?_, ?_⟩
    · change execHello s = _
      unfold execHello
      rw [hhead]
      dsimp only
      rw [hplace]
      rfl
    all_goals
      unfold waitHead
      split <;> rfl

end

end Sys2Proof.Machine
end

section
/-! PROOFS. The end of the station's own message (R32, R33, R34, R54, R59). -/

namespace Sys2Proof.Machine

section
variable {m : OutMsg} {rest : List OutMsg} {sel : OutSel} {sent : Msg} {j : Nat} {a r : Bool} {s : State}

theorem dropHead_cons {o : OutQ} (h : o.q = m :: rest) : o.dropHead = { q := rest } := by
  rw [OutQ.dropHead, h, List.drop_one, List.tail_cons]

theorem decideIfDue_of_window (h : s.mem.window ≠ .expired) : decideIfDue s = s := by
  unfold decideIfDue
  rw [if_neg (by simp [h])]

theorem openWindow_other (h : m.msg.kind ≠ .hello) : openWindow m.msg s = s := by
  unfold openWindow
  rw [if_neg (by simp [h])]

/-- The join window after a send of `m`: the first send of the own HELLO opens it (R54). -/
theorem openWindow_eq (m : Msg) (s : State) : openWindow m s = s.setMem { s.mem with window :=
    if m.kind = .hello ∧ s.mem.ownState = .joining ∧ s.mem.window = .closed then .running 2000 else s.mem.window } := by
  unfold openWindow
  by_cases h : m.kind = .hello ∧ s.mem.ownState = .joining ∧ s.mem.window = .closed
  · rw [if_pos h, if_pos (by simp [h])]
    rfl
  · rw [if_neg h, if_neg (by simpa [and_assoc] using h)]
    rfl

/-- The end of the own message in transmission: refused, delivered or unanswered by the lines. -/
theorem exec_sent (hbus : s.link.bus = .own sel sent false) (hq : (s.link.out sel).q = m :: rest) :
    exec (.acceptancePhase (.sent a r)) s = .next (settle (decideIfDue
      (if r then refused sel m (openWindow m.msg (s.setLink { s.link with bus := .free }))
        else if a then delivered sel m (openWindow m.msg (s.setLink { s.link with bus := .free }))
        else unanswered sel m (openWindow m.msg (s.setLink { s.link with bus := .free }))))) := by
  have hfree : ((s.setLink { s.link with bus := .free }).link.out sel).q = m :: rest := by
    rw [← hq]
    cases sel <;> rfl
  change execAcceptancePhase _ s = _
  unfold execAcceptancePhase
  rw [hbus]
  dsimp only
  rw [if_neg (by decide)]
  unfold sendEnd
  rw [hfree]

/-! ### What each end leaves -/

theorem refused_again (h : (s.link.out sel).refusals < 31) : refused sel m s = s.setLink (s.link.setOut sel
    { s.link.out sel with refusals := (s.link.out sel).refusals + 1, backoff := some 2 }) := by
  unfold refused
  dsimp only
  exact if_neg (by change ¬ 32 ≤ _; omega)

theorem refused_last (h : 31 ≤ (s.link.out sel).refusals) : refused sel m s =
    unanswered sel m (s.setLink (s.link.setOut sel { s.link.out sel with refusals := 0 })) := by
  unfold refused
  dsimp only
  exact if_pos (by change 32 ≤ _; omega)

theorem unanswered_all (h : m.msg.dest = .all) : unanswered sel m s = delivered sel m s := by
  unfold unanswered
  rw [h]

theorem unanswered_first (hd : m.msg.dest = .station j) (h : (s.link.out sel).unanswered = 0) : unanswered sel m s =
    s.setLink (s.link.setOut sel { s.link.out sel with unanswered := 1 }) := by
  unfold unanswered
  rw [hd]
  dsimp only
  rw [h, if_neg (by decide)]

theorem unanswered_second (hd : m.msg.dest = .station j) (hop : m.op = none) (h : (s.link.out sel).unanswered = 1)
    (hq : (s.link.out sel).q = m :: rest) :
    unanswered sel m s = reportUnreachable j (s.setLink (s.link.setOut sel { q := rest })) := by
  unfold unanswered opDisposed
  rw [hd]
  dsimp only
  rw [h, if_pos (by decide), hop, dropHead_cons hq]

theorem delivered_request (hk : m.msg.kind.isRequest = true) (hq : (s.link.out sel).q = m :: rest)
    (hx : (slotAt s m.msg.tag).state = .queued) : delivered sel m s =
      setSlot m.msg.tag { slotAt s m.msg.tag with
        state := .sent, attempts := (slotAt s m.msg.tag).attempts + 1, response := some 40, held := none, backoff := none }
        (s.setLink (s.link.setOut sel { q := rest })) := by
  unfold delivered slotDelivered
  dsimp only
  rw [dropHead_cons hq, if_pos hk]
  exact if_pos (beq_iff_eq.2 hx)

theorem delivered_other (hk : m.msg.kind.isRequest = false) (hop : m.op = none) (hq : (s.link.out sel).q = m :: rest) :
    delivered sel m s = s.setLink (s.link.setOut sel { q := rest }) := by
  unfold delivered opDisposed
  dsimp only
  rw [dropHead_cons hq, hk, hop]
  rfl

end

/-! ### O30 -/

section
variable {m : OutMsg} {rest : List OutMsg} {sent : Msg} {j : Nat} {accept refuse : Bool} {s : State}

/-- An unanswered request to one station, or one refused the last time: the second time its destination is reported. -/
theorem sent_inVain (hkind : m.msg.kind ≠ .hello) (hbus : s.link.bus = .own .request sent false)
    (hq : s.link.requests.q = m :: rest) (hdest : m.msg.dest = .station j) (hop : m.op = none)
    (hvain : (refuse = true ∧ s.link.requests.refusals = 31) ∨ (refuse = false ∧ accept = false))
    (hsecond : s.link.requests.unanswered = 1) :
    exec (.acceptancePhase (.sent accept refuse)) s = .next (settle (decideIfDue
      (reportUnreachable j (s.setLink { s.link with bus := .free, requests := { q := rest } })))) := by
  rw [exec_sent hbus hq, openWindow_other hkind]
  rcases hvain with ⟨rfl, hrefusals⟩ | ⟨rfl, rfl⟩
  · rw [if_pos rfl, refused_last (by exact Nat.le_of_eq hrefusals.symm), unanswered_second hdest hop (by exact hsecond) (by exact hq)]
    rfl
  · rw [if_neg Bool.false_ne_true, if_neg Bool.false_ne_true, unanswered_second hdest hop (by exact hsecond) (by exact hq)]
    rfl

/-- Settles O30: each end of the own message, by the lines, by its queue's counts and by its destination. -/
theorem sendsEndByTheLines : Obligations.SendsEndByTheLines := by
  unfold Obligations.SendsEndByTheLines
  refine ⟨fun m rest sent s hwindow hkind => ⟨fun accept hbus hq hrefusals => ?again, fun j hbus hq hdest hfirst => ?first,
      fun hbus hq hrequest hx => ?request, fun hbus hq hother hop => ?reply⟩,
    fun m rest sent j accept refuse s hwindow hkind hbus hq hdest hop hvain => ⟨fun hfirst hrefuse => ?lastRefusal,
      fun hsecond hlen hj hown hv => ?unreachable⟩,
    fun m rest sent accept s hwindow hbus hq hdest hother hop => ?notice,
    fun s hbus hoffer => ?gap, fun s => ⟨rfl, rfl, rfl⟩⟩
  case again =>
    rw [exec_sent hbus hq, openWindow_other hkind, if_pos rfl, refused_again (by exact hrefusals),
      decideIfDue_of_window (by exact hwindow)]
    rfl
  case first =>
    rw [exec_sent hbus hq, openWindow_other hkind, if_neg Bool.false_ne_true, if_neg Bool.false_ne_true,
      unanswered_first hdest (by exact hfirst), decideIfDue_of_window (by exact hwindow)]
    rfl
  case request =>
    rw [exec_sent hbus hq, openWindow_other hkind, if_neg Bool.false_ne_true, if_pos rfl,
      delivered_request hrequest (by exact hq) (by exact hx), decideIfDue_of_window (by exact hwindow)]
    rfl
  case reply =>
    rw [exec_sent hbus hq, openWindow_other hkind, if_neg Bool.false_ne_true, if_pos rfl, delivered_other hother hop (by exact hq),
      decideIfDue_of_window (by exact hwindow)]
    rfl
  case lastRefusal =>
    obtain ⟨-, hrefusals⟩ : refuse = true ∧ s.link.requests.refusals = 31 := hvain.resolve_right fun h => by simp [hrefuse] at h
    rw [exec_sent hbus hq, openWindow_other hkind, if_pos hrefuse, refused_last (by exact Nat.le_of_eq hrefusals.symm),
      unanswered_first hdest (by exact hfirst), decideIfDue_of_window (by exact hwindow)]
    rfl
  case unreachable =>
    have hrun := sent_inVain hkind hbus hq hdest hop hvain hsecond
    obtain ⟨hview, hended, hcause, hfail, hasked, hwin⟩ := reportUnreachable_spec
      (s := s.setLink { s.link with bus := .free, requests := { q := rest } }) hlen hj hown hv
    rw [decideIfDue_of_window (by rw [hwin]; exact hwindow)] at hrun
    exact ⟨_, hrun, hview, (Quiet.settle (Quiet.of_ended hended)).ended, hcause, hfail, hasked, sameRecord_of_fixed
      ((settle_fixed _).trans (reportUnreachable_fixed ..))⟩
  case notice =>
    intro ended
    have hstays : (if m.msg.kind = .hello ∧ s.mem.ownState = .joining ∧ s.mem.window = .closed then .running 2000
        else s.mem.window : JoinWindow) ≠ .expired := by
      split
      · exact nofun
      · exact hwindow
    refine ⟨?_, fun hlast => ?_, fun hrefusals => ?_⟩
    · cases accept
      · rw [exec_sent hbus hq, openWindow_eq, if_neg Bool.false_ne_true, if_neg Bool.false_ne_true, unanswered_all hdest,
          delivered_other hother hop (by exact hq), decideIfDue_of_window (by exact hstays)]
        rfl
      · rw [exec_sent hbus hq, openWindow_eq, if_neg Bool.false_ne_true, if_pos rfl,
          delivered_other hother hop (by exact hq), decideIfDue_of_window (by exact hstays)]
        rfl
    · rw [exec_sent hbus hq, openWindow_eq, if_pos rfl, refused_last (by exact hlast), unanswered_all hdest,
        delivered_other hother hop (by exact hq), decideIfDue_of_window (by exact hstays)]
      rfl
    · rw [exec_sent hbus hq, openWindow_eq, if_pos rfl, refused_again (by exact hrefusals), decideIfDue_of_window (by exact hstays)]
      rfl
  case gap =>
    change execIdleGap s = _
    unfold execIdleGap
    rw [hbus, hoffer]
    rfl

end

end Sys2Proof.Machine
end

section
/-! PROOFS. The frame of a message is read back (R21 to R26, R31, R196 to R198): bytes and words, the header's fields, the
checks of a receiver, and the fields a kind does not carry. -/

namespace Sys2Proof.Machine

/-! ### Bytes and words of a frame -/

theorem wordBytes_length (w : Word) : (wordBytes w).length = 4 := rfl

theorem wordBytes_append (w : Word) : w.extractLsb' 24 8 ++ w.extractLsb' 16 8 ++ w.extractLsb' 8 8 ++ w.extractLsb' 0 8 = w := by
  refine BitVec.eq_of_getLsbD_eq fun i hi => ?_
  simp only [BitVec.getLsbD_append, BitVec.getLsbD_extractLsb']
  rcases Nat.lt_or_ge i 8 with h1 | h1
  · simp [h1]
  · rcases Nat.lt_or_ge i 16 with h2 | h2
    · have : i - 8 < 8 := by omega
      have : ¬ i < 8 := by omega
      simp [*]
    · rcases Nat.lt_or_ge i 24 with h3 | h3
      · have : ¬ i < 8 := by omega
        have : ¬ i - 8 < 8 := by omega
        have : i - 8 - 8 < 8 := by omega
        have : 16 + (i - 8 - 8) = i := by omega
        simp [*]
      · have : ¬ i < 8 := by omega
        have : ¬ i - 8 < 8 := by omega
        have : ¬ i - 8 - 8 < 8 := by omega
        have : i - 8 - 8 - 8 < 8 := by omega
        have : 24 + (i - 8 - 8 - 8) = i := by omega
        simp [*]

theorem byteAt_append_right (l r : List Byte) (i : Nat) : byteAt (l ++ r) (l.length + i) = byteAt r i := by
  rw [byteAt, byteAt, List.getD_eq_getElem?_getD, List.getElem?_append_right (Nat.le_add_right ..), Nat.add_sub_cancel_left,
    List.getD_eq_getElem?_getD]

theorem wordAt_append_right (w : Word) (r : List Byte) (i : Nat) : wordAt (wordBytes w ++ r) (i + 1) = wordAt r i := by
  have hbyte (j : Nat) : byteAt (wordBytes w ++ r) (4 * (i + 1) + j) = byteAt r (4 * i + j) := by
    rw [show 4 * (i + 1) + j = (wordBytes w).length + (4 * i + j) by rw [wordBytes_length]; omega, byteAt_append_right]
  have hzero : byteAt (wordBytes w ++ r) (4 * (i + 1)) = byteAt r (4 * i) := hbyte 0
  simp only [wordAt, hbyte, hzero]

theorem wordAt_zero (w : Word) (r : List Byte) : wordAt (wordBytes w ++ r) 0 = w := wordBytes_append w

/-- The words of a frame are read back where they stand, whatever follows them. -/
theorem wordAt_flatMap {ws : List Word} {w : Word} (tail : List Byte) {i : Nat} (h : ws[i]? = some w) :
    wordAt (ws.flatMap wordBytes ++ tail) i = w := by
  induction ws generalizing i with
  | nil => simp at h
  | cons x ws ih =>
    rw [List.flatMap_cons, List.append_assoc]
    cases i with
    | zero =>
      obtain rfl : x = w := by simpa using h
      exact wordAt_zero x _
    | succ i =>
      rw [wordAt_append_right]
      exact ih (by simpa using h)

theorem flatMap_wordBytes_length (ws : List Word) : (ws.flatMap wordBytes).length = 4 * ws.length := by
  induction ws with
  | nil => rfl
  | cons w ws ih => rw [List.flatMap_cons, List.length_append, ih, wordBytes_length, List.length_cons]; omega

theorem withCheck_take (bs : List Byte) : (withCheck bs).take bs.length = bs := by simp [withCheck]

theorem withCheck_length (bs : List Byte) : (withCheck bs).length = bs.length + 2 := by simp [withCheck]

/-- The check word of a frame is that of the bytes before it. -/
theorem withCheck_check (bs : List Byte) :
    byteAt (withCheck bs) bs.length ++ byteAt (withCheck bs) (bs.length + 1) = checkWord bs := by
  have hbyte (x : BitVec 16) : x.extractLsb' 8 8 ++ x.extractLsb' 0 8 = x := by
    refine BitVec.eq_of_getLsbD_eq fun i hi => ?_
    simp only [BitVec.getLsbD_append, BitVec.getLsbD_extractLsb']
    rcases Nat.lt_or_ge i 8 with h | h
    · simp [h]
    · have : ¬ i < 8 := by omega
      have : i - 8 < 8 := by omega
      simp [*]
  have h0 := byteAt_append_right bs [(checkWord bs).extractLsb' 8 8, (checkWord bs).extractLsb' 0 8] 0
  have h1 := byteAt_append_right bs [(checkWord bs).extractLsb' 8 8, (checkWord bs).extractLsb' 0 8] 1
  rw [Nat.add_zero] at h0
  rw [withCheck, h0, h1]
  exact hbyte _

/-! ### The fields of the header words -/

theorem extract_number {w n : Nat} (lo : Nat) (x : BitVec w) (len : Nat) (h : x.extractLsb' lo len = BitVec.ofNat len n)
    (hn : n < 2 ^ len) : (x.extractLsb' lo len).toNat = n := by
  rw [h, BitVec.toNat_ofNat, Nat.mod_eq_of_lt hn]

theorem bit_of_extract {w i : Nat} {x : BitVec w} {b : Bool} (h : x.extractLsb' i 1 = BitVec.ofBool b) : x.getLsbD i = b := by
  have hbit := congrArg (·.getLsbD 0) h
  simpa using hbit

section Head

variable (m : Msg)

theorem head_kind : field (headWord0 m) 27 5 = m.kind.code := by
  refine extract_number _ _ _ ?_ (by cases m.kind <;> decide)
  simp (disch := omega) only [headWord0, BitVec.extractLsb'_append_eq_of_le, Nat.reduceSub]
  simp

theorem head_source (h : m.source < 8) : field (headWord0 m) 24 3 = m.source := by
  refine extract_number _ _ _ ?_ h
  simp (disch := omega) only [headWord0, BitVec.extractLsb'_append_eq_of_le, BitVec.extractLsb'_append_eq_of_add_le, Nat.reduceSub]
  simp

theorem head_dest (h : m.dest.code < 16) : field (headWord0 m) 20 4 = m.dest.code := by
  refine extract_number _ _ _ ?_ h
  simp (disch := omega) only [headWord0, BitVec.extractLsb'_append_eq_of_le, BitVec.extractLsb'_append_eq_of_add_le, Nat.reduceSub]
  simp

theorem head_sState : field (headWord0 m) 18 2 = m.sState.code := by
  refine extract_number _ _ _ ?_ (by cases m.sState <;> decide)
  simp (disch := omega) only [headWord0, BitVec.extractLsb'_append_eq_of_le, BitVec.extractLsb'_append_eq_of_add_le, Nat.reduceSub]
  simp

theorem head_sInc : (headWord0 m).extractLsb' 14 4 = m.sInc := by
  simp (disch := omega) only [headWord0, BitVec.extractLsb'_append_eq_of_le, BitVec.extractLsb'_append_eq_of_add_le, Nat.reduceSub]
  simp

theorem head_tag (h : m.tag < 8) : field (headWord0 m) 11 3 = m.tag := by
  refine extract_number _ _ _ ?_ h
  simp (disch := omega) only [headWord0, BitVec.extractLsb'_append_eq_of_le, BitVec.extractLsb'_append_eq_of_add_le, Nat.reduceSub]
  simp

theorem head_seq : (headWord0 m).getLsbD 10 = m.seq := by
  refine bit_of_extract ?_
  simp (disch := omega) only [headWord0, BitVec.extractLsb'_append_eq_of_le, BitVec.extractLsb'_append_eq_of_add_le, Nat.reduceSub]
  simp

theorem head_status : field (headWord0 m) 7 3 = m.status.code := by
  refine extract_number _ _ _ ?_ (by cases m.status <;> decide)
  simp (disch := omega) only [headWord0, BitVec.extractLsb'_append_eq_of_le, BitVec.extractLsb'_append_eq_of_add_le, Nat.reduceSub]
  simp

theorem head_lanes : (headWord0 m).extractLsb' 3 4 = m.f.lanes := by
  simp (disch := omega) only [headWord0, BitVec.extractLsb'_append_eq_of_le, BitVec.extractLsb'_append_eq_of_add_le, Nat.reduceSub]
  simp

theorem head_purpose : (headWord0 m).getLsbD 2 = (m.f.purpose == .repair) := by
  refine bit_of_extract ?_
  simp (disch := omega) only [headWord0, BitVec.extractLsb'_append_eq_of_le, BitVec.extractLsb'_append_eq_of_add_le, Nat.reduceSub]
  simp

theorem head_mode : (headWord0 m).getLsbD 1 = (m.mode == .warm) := by
  refine bit_of_extract ?_
  simp (disch := omega) only [headWord0, BitVec.extractLsb'_append_eq_of_le, BitVec.extractLsb'_append_eq_of_add_le, Nat.reduceSub]
  simp

end Head

section Address

variable (f : Fields)

theorem address_stripe (h : f.stripe < 2 ^ 16) : field (addressWord f) 16 16 = f.stripe := by
  refine extract_number _ _ _ ?_ h
  simp (disch := omega) only [addressWord, BitVec.extractLsb'_append_eq_of_le, Nat.reduceSub]
  simp

theorem address_position (h : f.position < 8) : field (addressWord f) 13 3 = f.position := by
  refine extract_number _ _ _ ?_ h
  simp (disch := omega) only [addressWord, BitVec.extractLsb'_append_eq_of_le, BitVec.extractLsb'_append_eq_of_add_le, Nat.reduceSub]
  simp

theorem address_offset (h : f.offset < 64) : field (addressWord f) 7 6 = f.offset := by
  refine extract_number _ _ _ ?_ h
  simp (disch := omega) only [addressWord, BitVec.extractLsb'_append_eq_of_le, BitVec.extractLsb'_append_eq_of_add_le, Nat.reduceSub]
  simp

theorem address_count (h : f.count < 128) : field (addressWord f) 0 7 = f.count := by
  refine extract_number _ _ _ ?_ h
  simp (disch := omega) only [addressWord, BitVec.extractLsb'_append_eq_of_add_le]
  simp

end Address

section Notice

variable (m : Msg)

theorem notice_nState : field (noticeWord m) 30 2 = m.nState.code := by
  refine extract_number _ _ _ ?_ (by cases m.nState <;> decide)
  simp (disch := omega) only [noticeWord, BitVec.extractLsb'_append_eq_of_le, Nat.reduceSub]
  simp

theorem notice_target (h : m.target < 8) : field (noticeWord m) 27 3 = m.target := by
  refine extract_number _ _ _ ?_ h
  simp (disch := omega) only [noticeWord, BitVec.extractLsb'_append_eq_of_le, BitVec.extractLsb'_append_eq_of_add_le, Nat.reduceSub]
  simp

theorem notice_targetInc : (noticeWord m).extractLsb' 23 4 = m.targetInc := by
  simp (disch := omega) only [noticeWord, BitVec.extractLsb'_append_eq_of_le, BitVec.extractLsb'_append_eq_of_add_le, Nat.reduceSub]
  simp

end Notice

section BadList

variable (m : Msg)

theorem badList_length (h : m.bad.length ≤ 4) : field (badListWord m) 29 3 = m.bad.length := by
  refine extract_number _ _ _ ?_ (by omega)
  simp (disch := omega) only [badListWord, BitVec.extractLsb'_append_eq_of_le, Nat.reduceSub]
  simp

theorem badList_many : (badListWord m).getLsbD 28 = m.many := by
  refine bit_of_extract ?_
  simp (disch := omega) only [badListWord, BitVec.extractLsb'_append_eq_of_le, BitVec.extractLsb'_append_eq_of_add_le, Nat.reduceSub]
  simp

theorem badList_offsets (h : ∀ i, m.bad.getD i 0 < 64) :
    [field (badListWord m) 22 6, field (badListWord m) 16 6, field (badListWord m) 10 6, field (badListWord m) 4 6] =
      [m.bad.getD 0 0, m.bad.getD 1 0, m.bad.getD 2 0, m.bad.getD 3 0] := by
  congr 1
  · refine extract_number _ _ _ ?_ (h 0)
    simp (disch := omega) only [badListWord, BitVec.extractLsb'_append_eq_of_le, BitVec.extractLsb'_append_eq_of_add_le, Nat.reduceSub]
    simp
  congr 1
  · refine extract_number _ _ _ ?_ (h 1)
    simp (disch := omega) only [badListWord, BitVec.extractLsb'_append_eq_of_le, BitVec.extractLsb'_append_eq_of_add_le, Nat.reduceSub]
    simp
  congr 1
  · refine extract_number _ _ _ ?_ (h 2)
    simp (disch := omega) only [badListWord, BitVec.extractLsb'_append_eq_of_le, BitVec.extractLsb'_append_eq_of_add_le, Nat.reduceSub]
    simp
  congr 1
  refine extract_number _ _ _ ?_ (h 3)
  simp (disch := omega) only [badListWord, BitVec.extractLsb'_append_eq_of_le, BitVec.extractLsb'_append_eq_of_add_le, Nat.reduceSub]
  simp

end BadList

theorem take_getD_four (l : List Nat) (h : l.length ≤ 4) :
    [l.getD 0 0, l.getD 1 0, l.getD 2 0, l.getD 3 0].take l.length = l := by
  rcases l with _ | ⟨a, _ | ⟨b, _ | ⟨c, _ | ⟨d, _ | ⟨e, l⟩⟩⟩⟩⟩
  case cons.cons.cons.cons.cons => simp only [List.length_cons] at h; omega
  all_goals rfl

/-- The bad list is read back. -/
theorem badListOf_badListWord (m : Msg) (hlen : m.bad.length ≤ 4) (h : ∀ o ∈ m.bad, o < 64) :
    badListOf (badListWord m) = m.bad := by
  have hlow : ∀ i, m.bad.getD i 0 < 64 := by
    intro i
    rw [List.getD_eq_getElem?_getD]
    cases hi : m.bad[i]? with
    | none => decide
    | some o => exact h o (List.mem_of_getElem? hi)
  rw [badListOf, badList_length m hlen, badList_offsets m hlow, take_getD_four _ hlen]

/-! ### Void maps -/

theorem voidNat_lt (l : List Bool) : voidNat l < 2 ^ l.length := by
  induction l with
  | nil => decide
  | cons b l ih =>
    have := Bool.toNat_le b
    rw [voidNat, List.length_cons, Nat.pow_succ]
    omega

theorem voidNat_testBit (l : List Bool) (i : Nat) : (voidNat l).testBit i = l.getD i false := by
  induction l generalizing i with
  | nil => simp [voidNat]
  | cons b l ih =>
    cases i with
    | zero => cases b <;> simp [voidNat, Nat.testBit_zero]
    | succ i =>
      have hdiv : (b.toNat + 2 * voidNat l) / 2 = voidNat l := by
        have := Bool.toNat_le b
        omega
      rw [voidNat, Nat.testBit_succ, hdiv, ih]
      rfl

/-- The void map is read back from its two words. -/
theorem voids_read (l : List Bool) (h : l.length ≤ 64) :
    (List.range l.length).map (((BitVec.ofNat 32 (voidNat l / 2 ^ 32)).toNat * 2 ^ 32 +
      (BitVec.ofNat 32 (voidNat l)).toNat).testBit ·) = l := by
  have hlt : voidNat l < 2 ^ 64 := Nat.lt_of_lt_of_le (voidNat_lt l) (Nat.pow_le_pow_right (by decide) h)
  have hmap : (BitVec.ofNat 32 (voidNat l / 2 ^ 32)).toNat * 2 ^ 32 + (BitVec.ofNat 32 (voidNat l)).toNat = voidNat l := by
    rw [BitVec.toNat_ofNat, BitVec.toNat_ofNat]
    omega
  rw [hmap]
  refine List.ext_getElem (by simp) fun i h1 h2 => ?_
  simp [voidNat_testBit, h2]

end Sys2Proof.Machine
end

section
/-! PROOFS. A message that may be sent is read from its frame (R30, R31, R198). -/

namespace Sys2Proof.Machine

/-! ### Codes -/

theorem kindOfCode_code (k : Kind) : kindOfCode k.code = some k := by cases k <;> rfl

theorem statusOf_code (x : Status) : statusOf x.code = some x := by cases x <;> rfl

theorem peerStateOf_code (x : PeerState) : peerStateOf x.code = some x := by cases x <;> rfl

theorem dest_read {d : Dest} (h : ∀ j, d = .station j → j < 15) : (if d.code == 15 then .all else .station d.code) = d := by
  cases d with
  | all => rfl
  | station j => exact if_neg (by have := h j rfl; simp only [Dest.code, beq_iff_eq]; omega)

theorem purpose_read (x : Purpose) : (if x == .repair then .repair else .read) = x := by cases x <;> rfl

theorem mode_read (x : JoinMode) : (if x == .warm then .warm else .cold) = x := by cases x <;> rfl

/-! ### Ranges (R4, R31) -/

theorem unitWords_le (p : StrapPins) : unitWords p ≤ 64 := by
  obtain ⟨sn, gs, us, bs, sm, ap⟩ := p
  have h : ∀ us : BitVec 2, (usDecode us).getD 0 / 4 ≤ 64 := by decide
  exact h us

theorem stripeCount_le (p : StrapPins) : stripeCount p ≤ 65536 := by
  obtain ⟨sn, gs, us, bs, sm, ap⟩ := p
  have h : ∀ (us bs : BitVec 2), bsDecode bs / (usDecode us).getD 0 ≤ 65536 := by decide
  exact h us bs

/-- The ranges of the fields of a message that is not malformed. -/
structure Ranges (p : StrapPins) (m : Msg) : Prop where
  source : m.source < groupSize p
  stripe : m.kind.hasAddress = true → m.f.stripe < stripeCount p
  position : m.kind.isRequest = true → m.f.position < dataUnits p
  offset : m.kind.hasOffset = true → m.f.offset < unitWords p
  count : m.kind.hasCount = true → m.f.offset + m.f.count ≤ unitWords p
  bad : ∀ o ∈ m.bad, o < unitWords p
  target : m.kind = .fail → m.target < groupSize p

theorem ranges_of_formed {p : StrapPins} {m : Msg} (h : malformed p m = false) : Ranges p m := by
  simp only [malformed, Bool.or_eq_false_iff, Bool.and_eq_false_imp, decide_eq_false_iff_not, Nat.not_le, beq_iff_eq,
    List.any_eq_false, decide_eq_true_eq] at h
  obtain ⟨⟨⟨⟨⟨⟨⟨⟨⟨⟨⟨⟨⟨⟨⟨hsource, -⟩, -⟩, -⟩, hstripe⟩, hposition⟩, hoffset⟩, hcount⟩, -⟩, -⟩, hbad⟩, htarget⟩, -⟩, -⟩, -⟩, -⟩ := h
  exact ⟨hsource, hstripe, hposition, hoffset, fun hk => Nat.not_lt.1 (hcount hk).2, hbad, htarget⟩

/-! ### Where the header words stand (R197) -/

section Words

variable (m : Msg)

theorem headerWords_length : (headerWords m).length = 1 + m.kind.moreWords := by
  simp only [headerWords, Kind.moreWords, List.length_cons, List.length_append]
  (repeat' split) <;> rfl

theorem headerWords_address (h : m.kind.hasAddress = true) : (headerWords m)[1]? = some (addressWord m.f) := by
  simp [headerWords, h]

theorem headerWords_voids (h : m.kind.hasVoids = true) :
    (headerWords m)[if m.kind.hasAddress then 2 else 1]? = some (BitVec.ofNat 32 (voidNat m.f.voids / 2 ^ 32)) ∧
      (headerWords m)[(if m.kind.hasAddress then 2 else 1) + 1]? = some (BitVec.ofNat 32 (voidNat m.f.voids)) := by
  cases ha : m.kind.hasAddress <;> simp [headerWords, h, ha]

theorem headerWords_fold (h : m.kind.hasFold = true) :
    (headerWords m)[1]? = some m.foldWord ∧ (headerWords m)[2]? = some (badListWord m) := by
  have hk : m.kind = .foldRsp := by simpa [Kind.hasFold] using h
  have ha : m.kind.hasAddress = false := by rw [hk]; rfl
  have hv : m.kind.hasVoids = false := by rw [hk]; rfl
  simp [headerWords, h, ha, hv]

theorem headerWords_notice (h : m.kind.hasNotice = true) : (headerWords m)[1]? = some (noticeWord m) := by
  have hk : m.kind = .helloRsp ∨ m.kind = .state ∨ m.kind = .fail := by simpa [Kind.hasNotice, or_assoc] using h
  have ha : m.kind.hasAddress = false := by rcases hk with hk | hk | hk <;> rw [hk] <;> rfl
  have hv : m.kind.hasVoids = false := by rcases hk with hk | hk | hk <;> rw [hk] <;> rfl
  have hf : m.kind.hasFold = false := by rcases hk with hk | hk | hk <;> rw [hk] <;> rfl
  simp [headerWords, h, ha, hv, hf]

end Words

/-! ### The fields a kind carries (R198) -/

/-- The two messages agree in every field that the kind of the second carries. -/
structure SameCarried (x m : Msg) : Prop where
  kind : x.kind = m.kind
  source : x.source = m.source
  dest : x.dest = m.dest
  sState : x.sState = m.sState
  sInc : x.sInc = m.sInc
  tag : x.tag = m.tag
  seq : x.seq = m.seq
  status : x.status = m.status
  stripe : m.kind.hasAddress = true → x.f.stripe = m.f.stripe
  position : m.kind.isRequest = true → x.f.position = m.f.position
  offset : m.kind.hasOffset = true → x.f.offset = m.f.offset
  count : m.kind.hasCount = true → x.f.count = m.f.count
  lanes : x.f.lanes = m.f.lanes
  purpose : x.f.purpose = m.f.purpose
  payload : x.f.payload = m.f.payload
  voids : m.kind.hasVoids = true → x.f.voids = m.f.voids
  foldWord : m.kind.hasFold = true → x.foldWord = m.foldWord
  bad : m.kind.hasFold = true → x.bad = m.bad
  many : m.kind.hasFold = true → x.many = m.many
  mode : x.mode = m.mode
  nState : m.kind.hasNState = true → x.nState = m.nState
  target : m.kind = .fail → x.target = m.target
  targetInc : m.kind = .fail → x.targetInc = m.targetInc

theorem zeroFill_of_same {x m : Msg} (h : SameCarried x m) : zeroFill x = zeroFill m := by
  have hand {c a b : Bool} (hab : c = true → a = b) : (c && a) = (c && b) := by
    cases c
    · rfl
    · exact hab rfl
  have hfail : (m.kind == .fail) = true → m.kind = .fail := beq_iff_eq.1
  simp only [zeroFill, h.kind, h.source, h.dest, h.sState, h.sInc, h.tag, h.seq, h.status, h.lanes, h.purpose, h.payload, h.mode,
    ite_congr rfl h.stripe fun _ => rfl, ite_congr rfl h.position fun _ => rfl, ite_congr rfl h.offset fun _ => rfl,
    ite_congr rfl h.count fun _ => rfl, ite_congr rfl h.voids fun _ => rfl, ite_congr rfl h.foldWord fun _ => rfl,
    ite_congr rfl h.bad fun _ => rfl, hand h.many, ite_congr rfl h.nState fun _ => rfl,
    ite_congr rfl (fun hk => h.target (hfail hk)) fun _ => rfl, ite_congr rfl (fun hk => h.targetInc (hfail hk)) fun _ => rfl]

/-! ### The message read back -/

/-- The bytes of a message before its check word. -/
def frameBody (m : Msg) : List Byte := (headerWords m ++ m.f.payload).flatMap wordBytes

section Read

variable {p : StrapPins} {m : Msg}

theorem encodeFrame_eq (h : m.Sendable p) : encodeFrame m = withCheck (frameBody m) := by
  rw [encodeFrame, h.filled]
  rfl

theorem frameBody_length (m : Msg) : (frameBody m).length = 4 * (1 + m.kind.moreWords + m.f.payload.length) := by
  rw [frameBody, flatMap_wordBytes_length, List.length_append, headerWords_length]

theorem wordAt_header {i : Nat} {w : Word} (h : (headerWords m)[i]? = some w) : wordAt (withCheck (frameBody m)) i = w := by
  refine wordAt_flatMap _ ?_
  rw [List.getElem?_append_left (List.getElem?_eq_some_iff.1 h).1, h]

theorem wordAt_payload (m : Msg) :
    (List.range m.f.payload.length).map (fun i => wordAt (withCheck (frameBody m)) (1 + m.kind.moreWords + i)) = m.f.payload := by
  refine List.ext_getElem (by simp) fun i h1 h2 => ?_
  rw [List.getElem_map, List.getElem_range]
  refine wordAt_flatMap _ ?_
  rw [List.getElem?_append_right (by rw [headerWords_length]; omega), headerWords_length, Nat.add_sub_cancel_left,
    List.getElem?_eq_getElem h2]

theorem hasAddress_of_hasOffset {k : Kind} (h : k.hasOffset = true) : k.hasAddress = true := by
  revert h
  cases k <;> decide

theorem hasAddress_of_hasCount {k : Kind} (h : k.hasCount = true) : k.hasAddress = true := by
  revert h
  cases k <;> decide

theorem payloadCount_congr {w c c' : Nat} {k : Kind} {x : Status} (h : k.hasCount = true → c = c') :
    payloadCount w k x c = payloadCount w k x c' := by
  cases k with
  | store | gatherRsp => exact h rfl
  | _ => rfl

theorem voids_length_le (h : m.Sendable p) (hk : m.kind.hasVoids = true) : m.f.voids.length ≤ 64 := by
  rw [h.voids hk, h.payload]
  have hw := unitWords_le p
  have hcount := (ranges_of_formed h.formed).count
  have hkind : m.kind = .store ∨ m.kind = .gatherRsp ∨ m.kind = .rebuildRsp := by simpa [Kind.hasVoids, or_assoc] using hk
  rcases hkind with hkind | hkind | hkind <;> rw [hkind] at hcount ⊢
  · have := hcount rfl
    change m.f.count ≤ 64
    omega
  · have := hcount rfl
    change m.f.count ≤ 64
    omega
  · exact hw

/-- The fields a kind carries are read from the words where they stand. -/
theorem parseMsg_frame (h : m.Sendable p) : parseMsg m.kind m.f.payload.length (withCheck (frameBody m)) = some m := by
  have hr := ranges_of_formed h.formed
  have hgroup := groupSize_le p
  have hunit := unitWords_le p
  have hstripes := stripeCount_le p
  have hdata := dataUnits_le p
  have h0 : wordAt (withCheck (frameBody m)) 0 = headWord0 m := wordAt_header rfl
  have hdest : m.dest.code < 16 := by
    cases hd : m.dest with
    | all => decide
    | station j => exact Nat.lt_succ_of_lt (h.dest j hd)
  have haddress (hk : m.kind.hasAddress = true) := wordAt_header (headerWords_address m hk)
  have hvoids (hk : m.kind.hasVoids = true) := (headerWords_voids m hk).imp wordAt_header wordAt_header
  have hfold (hk : m.kind.hasFold = true) := (headerWords_fold m hk).imp wordAt_header wordAt_header
  have hnstate (hk : m.kind.hasNState = true) : wordAt (withCheck (frameBody m)) 1 = noticeWord m :=
    wordAt_header (headerWords_notice m (by simp only [Kind.hasNState, Kind.hasNotice] at hk ⊢; rw [hk, Bool.true_or]))
  have hfail (hk : m.kind = .fail) : wordAt (withCheck (frameBody m)) 1 = noticeWord m :=
    wordAt_header (headerWords_notice m (by rw [hk]; rfl))
  unfold parseMsg
  dsimp only
  rw [h0, head_sState, peerStateOf_code]
  dsimp only
  rw [if_neg, if_neg, if_neg]
  · refine congrArg some (Eq.trans (zeroFill_of_same ?_) h.filled)
    exact {
      kind := rfl
      source := head_source m (by have := hr.source; omega)
      dest := by rw [head_dest m hdest]; exact dest_read h.dest
      sState := rfl
      sInc := head_sInc m
      tag := head_tag m h.tag
      seq := head_seq m
      status := by rw [head_status, statusOf_code]; rfl
      stripe := fun hk => by
        have := hr.stripe hk
        rw [haddress hk, address_stripe _ (by omega)]
      position := fun hk => by
        have := hr.position hk
        rw [haddress (by rw [Kind.hasAddress, hk, Bool.true_or]), address_position _ (by omega)]
      offset := fun hk => by
        have := hr.offset hk
        rw [haddress (hasAddress_of_hasOffset hk), address_offset _ (by omega)]
      count := fun hk => by
        have := hr.count hk
        rw [haddress (hasAddress_of_hasCount hk), address_count _ (by omega)]
      lanes := head_lanes m
      purpose := by rw [head_purpose]; exact purpose_read _
      payload := wordAt_payload m
      voids := fun hk => by
        rw [(hvoids hk).1, (hvoids hk).2, ← h.voids hk]
        exact voids_read _ (voids_length_le h hk)
      foldWord := fun hk => (hfold hk).1
      bad := fun hk => by
        rw [(hfold hk).2]
        exact badListOf_badListWord m h.bad fun o ho => by have := hr.bad o ho; omega
      many := fun hk => by rw [(hfold hk).2, badList_many]
      mode := by rw [head_mode]; exact mode_read _
      nState := fun hk => by rw [hnstate hk, notice_nState, peerStateOf_code]; rfl
      target := fun hk => by
        have := hr.target hk
        rw [hfail hk, notice_target _ (by omega)]
      targetInc := fun hk => by rw [hfail hk, notice_targetInc] }
  · intro hbad
    rw [Bool.and_eq_true] at hbad
    rw [hnstate hbad.1, notice_nState] at hbad
    cases hs : m.nState <;> simp [hs, PeerState.code] at hbad
  · intro hbad
    rw [Bool.and_eq_true, decide_eq_true_eq] at hbad
    rw [(hfold hbad.1).2, badList_length m h.bad] at hbad
    exact absurd h.bad (Nat.not_le.2 hbad.2)
  · intro hbad
    rw [Bool.and_eq_true, decide_eq_true_eq, head_status] at hbad
    have : m.status.code < 5 := by cases m.status <;> decide
    exact absurd hbad.2 (Nat.not_le.2 this)

theorem decodeFrame_frame (h : m.Sendable p) : decodeFrame p (withCheck (frameBody m)) = .ok m := by
  have h0 : wordAt (withCheck (frameBody m)) 0 = headWord0 m := wordAt_header rfl
  have hlen := frameBody_length m
  have hwhole := withCheck_length (frameBody m)
  have hpayload : payloadCount (unitWords p) m.kind m.status (field (wordAt (withCheck (frameBody m)) 1) 0 7) = m.f.payload.length := by
    rw [h.payload]
    refine payloadCount_congr fun hk => ?_
    have := (ranges_of_formed h.formed).count hk
    have := unitWords_le p
    rw [wordAt_header (headerWords_address m (hasAddress_of_hasCount hk)), address_count _ (by omega)]
  unfold decodeFrame
  dsimp only
  rw [h0, head_kind, kindOfCode_code, if_neg (by omega)]
  dsimp only
  rw [if_neg (by omega), head_status, statusOf_code, Option.getD_some, hpayload, ← hlen, if_neg (by omega), if_neg (by omega),
    withCheck_take, withCheck_check, bne_self_eq_false, if_neg Bool.false_ne_true, parseMsg_frame h]
  exact if_neg (by rw [h.formed]; exact Bool.false_ne_true)

end Read

/-- Settles O11: every header word and payload word is read where the encoder put it, so the fields the kind carries come back, and
the rest are 0 on both sides. -/
theorem framesReadBack : Obligations.FramesReadBack := by
  unfold Obligations.FramesReadBack
  intro p m h
  rw [encodeFrame_eq h]
  exact decodeFrame_frame h

end Sys2Proof.Machine
end
